-- ==== Sys2Proof/Word.lean ====
section
/-! DEFINITION. The two word types of the block (00_scope.md R11, 30_encoding.md R81). -/

namespace Sys2Proof

/-- An instruction address: 32 bits, unsigned, bit 0 least significant, arithmetic modulo 2^32 (R11, R21). -/
abbrev Addr := BitVec 32

/-- A command word: one 64-bit word, bit 63 the most significant (R81). -/
abbrev CommandWord := BitVec 64

end Sys2Proof
end

