-- ==== Sys2Proof/Config.lean ====
section
/-! DEFINITION. The named parameters of the hardware (00_scope.md R8): constants that no command changes.
`MISS_PENALTY` and `CAPACITY_LIMIT` are OPEN in the spec (92_eei_decisions.md D9, D10), so they are constants with no
body here: no proof can see a value of either. -/

namespace Sys2Proof

/-- The spec's `Config` record, the first argument of its `step` (00_scope.md R9, 10_state.md R51). -/
structure Params where
  /-- `MISS_PENALTY`: advances a missing instruction costs in all; at least 1 (R8, D9). -/
  missPenalty : Nat
  /-- `CAPACITY_LIMIT`: the capacity ceiling, in bytes (R8, R28, D10). -/
  capacityLimit : Nat
  /-- `REPLAY_REDETECT`: whether a replay runs the detector again (R8, R163, R166, D6). -/
  replayRedetect : Bool
  deriving DecidableEq, Repr

/-- `MISS_PENALTY - 1`, the burn count of R210: a natural number the spec leaves open (D9). -/
opaque Config.missPenaltyLessOne : Nat

/-- `CAPACITY_LIMIT`, a natural number of bytes the spec leaves open (D10). -/
opaque Config.capacityLimit : Nat

/-- `REPLAY_REDETECT`: R8 and R163 fix it at `false`, the canonical model. -/
def Config.replayRedetect : Bool := false

/-- The parameters of this hardware. `MISS_PENALTY` is at least 1 by its form (R8). -/
def Config.params : Params where
  missPenalty := Config.missPenaltyLessOne + 1
  capacityLimit := Config.capacityLimit
  replayRedetect := Config.replayRedetect

/-- `REG_W = 5`: the width of a register index in the command word, and nowhere else (R8, R90). -/
abbrev Config.regW : Nat := 5

/-- `ADDR_W = 32` (R8). -/
abbrev Config.addrW : Nat := 32

/-- `STAGES = 5` (R8, R30). -/
abbrev Config.stages : Nat := 5

/-- `INSTR_BYTES = 4`, the constant of the adjacency test (R8, R141). -/
abbrev Config.instrBytes : Nat := 4

end Sys2Proof
end

