-- ==== Sys2Proof/Syntax.lean ====
section
/-! DEFINITION. The abstract command set (30_encoding.md R84): twelve commands, one constructor per row of
spec/opcode_table.json, in the table's order. -/

namespace Sys2Proof

/-- A register operand: absent ("register not modeled") or present with an index, a natural number (10_state.md R33). -/
abbrev RegOp := Option Nat

/-- The static prediction, `branch_prediction` (10_state.md R22): 0 or 1. -/
inductive Prediction where
  /-- 0, always not-taken. -/
  | alwaysNotTaken
  /-- 1, always taken. -/
  | alwaysTaken
  deriving DecidableEq, Repr

/-- The block's commands with the arguments of R84. -/
inductive Instr where
  /-- PROCESS_NOP (R191). -/
  | processNop (addr : Addr)
  /-- PROCESS_RTYPE (R192). -/
  | processRtype (addr : Addr) (dest src1 src2 : RegOp)
  /-- PROCESS_LOAD (R193). -/
  | processLoad (addr : Addr) (dest base : RegOp)
  /-- PROCESS_STORE (R194). -/
  | processStore (addr : Addr) (src base : RegOp)
  /-- PROCESS_BRANCH (R195). -/
  | processBranch (addr : Addr)
  /-- PROCESS_JUMP (R196). -/
  | processJump (addr : Addr)
  /-- PROCESS_SYSCALL (R197). -/
  | processSyscall (addr : Addr)
  /-- LOOKUP (R113). -/
  | lookup (addr : Addr)
  /-- ADVANCE (R160). -/
  | advance
  /-- FETCH_ACCESS (R210). -/
  | fetchAccess (addr : Addr)
  /-- FINALIZE (R170). -/
  | finalize
  /-- CONFIGURE (R250). -/
  | configure (indexBits blockSizeWords associativity : Nat) (branchPrediction : Prediction)
  deriving DecidableEq, Repr

end Sys2Proof
end

