-- ==== Sys2Proof/WellFormed.lean ====
section
/-! DEFINITION. Which commands of the abstract set have a command word (30_encoding.md R90, R93, R96): every present
register index fits `REG_W` bits, the mandatory operands are present (10_state.md R34), and the configuration inputs
fit their fields. A CONFIGURE whose values are encodable but not legal IS well formed (R96). -/

namespace Sys2Proof

/-- An absent operand, or an index that fits the 5-bit field (R90). -/
def RegOp.encodable (x : RegOp) : Bool :=
  match x with
  | none => true
  | some r => decide (r < 2 ^ Config.regW)

/-- `index_bits` fits `lo[5:0]`, `block_size_words` fits `lo[10:6]`, `associativity` fits `lo[26:11]` (R96). -/
def configFieldsFit (indexBits blockSizeWords associativity : Nat) : Bool :=
  decide (indexBits < 64) && decide (blockSizeWords < 32) && decide (associativity < 65536)

/-- The operands that R34 says are always present: `RTYPE.dest`, `LOAD.dest`, `STORE.src`. -/
def Instr.mandatoryPresent : Instr → Bool
  | .processRtype _ dest _ _ => dest.isSome
  | .processLoad _ dest _ => dest.isSome
  | .processStore _ src _ => src.isSome
  | .processNop _ | .processBranch _ | .processJump _ | .processSyscall _ => true
  | .lookup _ | .advance | .fetchAccess _ | .finalize | .configure _ _ _ _ => true

/-- Every operand has a field of the command word that holds it. -/
def Instr.operandsFit : Instr → Bool
  | .processRtype _ dest src1 src2 => RegOp.encodable dest && RegOp.encodable src1 && RegOp.encodable src2
  | .processLoad _ dest base => RegOp.encodable dest && RegOp.encodable base
  | .processStore _ src base => RegOp.encodable src && RegOp.encodable base
  | .configure ib bsw assoc _ => configFieldsFit ib bsw assoc
  | .processNop _ | .processBranch _ | .processJump _ | .processSyscall _ => true
  | .lookup _ | .advance | .fetchAccess _ | .finalize => true

/-- A command some well-formed word stands for (R93). -/
def Instr.wellFormed (i : Instr) : Bool := i.mandatoryPresent && i.operandsFit

end Sys2Proof
end

