-- ==== Sys2Proof/Decode.lean ====
section
/-! DEFINITION. The 64-bit command word (30_encoding.md sections 2, 3 and 5): its fields (R81), the decoder, total on
any word and rejecting by name (R93), and the encoder, both written from the formats of R82 and R83. Decoding depends
on the word alone (R97). -/

namespace Sys2Proof

/-- Why a word is no command; each of them is a ParseError (R93, R94, R222). -/
inductive DecodeError where
  /-- `op` is 0x7, 0xD, 0xE or 0xF (R94). Raised by `decode`; the command port turns it into ParseError. Safe. -/
  | reservedOp
  /-- A field the format does not use is not zero (R82). Raised by `decode`. Safe. -/
  | mustBeZero
  /-- An absent operand with a nonzero index field (R93). Raised by `decode`. Safe. -/
  | absentIndexNonzero
  /-- Operand a of PROCESS_RTYPE, PROCESS_LOAD or PROCESS_STORE is absent (R93). Raised by `decode`. Safe. -/
  | mandatoryAbsent
  deriving DecidableEq, Repr

/-! The fields of R81. -/

/-- `op`, bits 63:60. -/
def fieldOp (w : CommandWord) : BitVec 4 := w.extractLsb' 60 4
/-- `a_p`, bit 59. -/
def fieldAp (w : CommandWord) : BitVec 1 := w.extractLsb' 59 1
/-- `a`, bits 58:54. -/
def fieldA (w : CommandWord) : BitVec 5 := w.extractLsb' 54 5
/-- `b_p`, bit 53. -/
def fieldBp (w : CommandWord) : BitVec 1 := w.extractLsb' 53 1
/-- `b`, bits 52:48. -/
def fieldB (w : CommandWord) : BitVec 5 := w.extractLsb' 48 5
/-- `c_p`, bit 47. -/
def fieldCp (w : CommandWord) : BitVec 1 := w.extractLsb' 47 1
/-- `c`, bits 46:42. -/
def fieldC (w : CommandWord) : BitVec 5 := w.extractLsb' 42 5
/-- `z`, bits 41:32. -/
def fieldZ (w : CommandWord) : BitVec 10 := w.extractLsb' 32 10
/-- `lo`, bits 31:0. -/
def fieldLo (w : CommandWord) : BitVec 32 := w.extractLsb' 0 32
/-- Bits 59:32, which formats P0, A and C require to be zero (R82). -/
def fieldMid (w : CommandWord) : BitVec 28 := w.extractLsb' 32 28
/-- Bits 47:32, which format P2 requires to be zero: `c_p`, `c` and `z` (R82). -/
def fieldCz (w : CommandWord) : BitVec 16 := w.extractLsb' 32 16

/-! The fields of the CONFIGURE word's `lo` (R96). -/

/-- `index_bits`, `lo[5:0]`. -/
def fieldIndexBits (w : CommandWord) : BitVec 6 := w.extractLsb' 0 6
/-- `block_size_words`, `lo[10:6]`. -/
def fieldBlockSizeWords (w : CommandWord) : BitVec 5 := w.extractLsb' 6 5
/-- `associativity`, `lo[26:11]`. -/
def fieldAssociativity (w : CommandWord) : BitVec 16 := w.extractLsb' 11 16
/-- `branch_prediction`, `lo[27]`. -/
def fieldPrediction (w : CommandWord) : BitVec 1 := w.extractLsb' 27 1
/-- `lo[31:28]`, which must be zero. -/
def fieldLoTop (w : CommandWord) : BitVec 4 := w.extractLsb' 28 4

/-- A register operand from its presence bit and index field (R90, R93 condition 3). -/
def decodeOperand (p : BitVec 1) (x : BitVec 5) : Except DecodeError RegOp :=
  if p = 1#1 then .ok (some x.toNat)
  else if x = 0#5 then .ok none
  else .error .absentIndexNonzero

/-- A register operand that must be present (R93 conditions 3 and 4). -/
def decodeMandatory (p : BitVec 1) (x : BitVec 5) : Except DecodeError RegOp :=
  match decodeOperand p x with
  | .ok none => .error .mandatoryAbsent
  | r => r

/-- The prediction bit (R96). -/
def decodePrediction (p : BitVec 1) : Prediction :=
  if p = 1#1 then .alwaysTaken else .alwaysNotTaken

/-- Formats P0 and A: `op` and an address (R82, R92). -/
def decodeAddrOnly (w : CommandWord) (make : Addr → Instr) : Except DecodeError Instr :=
  if fieldMid w = 0#28 then .ok (make (fieldLo w)) else .error .mustBeZero

/-- Format P2: a mandatory operand a, an operand b and an address (R82, R91). -/
def decodeTwoOperands (w : CommandWord) (make : Addr → RegOp → RegOp → Instr) : Except DecodeError Instr :=
  if fieldCz w = 0#16 then
    match decodeMandatory (fieldAp w) (fieldA w), decodeOperand (fieldBp w) (fieldB w) with
    | .ok a, .ok b => .ok (make (fieldLo w) a b)
    | .error e, _ => .error e
    | .ok _, .error e => .error e
  else .error .mustBeZero

/-- Format P3: a mandatory operand a, operands b and c and an address (R82, R91). -/
def decodeThreeOperands (w : CommandWord) (make : Addr → RegOp → RegOp → RegOp → Instr) : Except DecodeError Instr :=
  if fieldZ w = 0#10 then
    match decodeMandatory (fieldAp w) (fieldA w), decodeOperand (fieldBp w) (fieldB w),
      decodeOperand (fieldCp w) (fieldC w) with
    | .ok a, .ok b, .ok c => .ok (make (fieldLo w) a b c)
    | .error e, _, _ => .error e
    | .ok _, .error e, _ => .error e
    | .ok _, .ok _, .error e => .error e
  else .error .mustBeZero

/-- Format Z: `op` alone (R82). -/
def decodeBare (w : CommandWord) (i : Instr) : Except DecodeError Instr :=
  if fieldMid w = 0#28 ∧ fieldLo w = 0#32 then .ok i else .error .mustBeZero

/-- Format C: `op` and the configuration (R82, R96). -/
def decodeConfigure (w : CommandWord) : Except DecodeError Instr :=
  if fieldMid w = 0#28 ∧ fieldLoTop w = 0#4 then
    .ok (.configure (fieldIndexBits w).toNat (fieldBlockSizeWords w).toNat (fieldAssociativity w).toNat
      (decodePrediction (fieldPrediction w)))
  else .error .mustBeZero

/-- The decoder: the command a word stands for, or why it stands for none (R83, R93, R94). -/
def decode (w : CommandWord) : Except DecodeError Instr :=
  match (fieldOp w).toNat with
  | 0x0 => decodeAddrOnly w .processNop
  | 0x1 => decodeThreeOperands w .processRtype
  | 0x2 => decodeTwoOperands w .processLoad
  | 0x3 => decodeTwoOperands w .processStore
  | 0x4 => decodeAddrOnly w .processBranch
  | 0x5 => decodeAddrOnly w .processJump
  | 0x6 => decodeAddrOnly w .processSyscall
  | 0x8 => decodeAddrOnly w .lookup
  | 0x9 => decodeBare w .advance
  | 0xA => decodeAddrOnly w .fetchAccess
  | 0xB => decodeBare w .finalize
  | 0xC => decodeConfigure w
  | _ => .error .reservedOp

/-- The word whose low `nbits` bits are those of `w`, every bit above them 0. The block has no byte order
(20_memory.md R62): a command word is one number. -/
def wordOfTable (nbits w : Nat) : CommandWord := BitVec.ofNat 64 (w % 2 ^ nbits)

/-- What the decoder reads from a word numbered as the opcode table numbers it. -/
def decodeTableWord (nbits w : Nat) : Option Instr :=
  match decode (wordOfTable nbits w) with
  | .ok i => some i
  | .error _ => none

/-! The encoder. -/

/-- The `op` value of a command (R83). -/
def Instr.opcode : Instr → BitVec 4
  | .processNop _ => 0x0#4
  | .processRtype _ _ _ _ => 0x1#4
  | .processLoad _ _ _ => 0x2#4
  | .processStore _ _ _ => 0x3#4
  | .processBranch _ => 0x4#4
  | .processJump _ => 0x5#4
  | .processSyscall _ => 0x6#4
  | .lookup _ => 0x8#4
  | .advance => 0x9#4
  | .fetchAccess _ => 0xA#4
  | .finalize => 0xB#4
  | .configure _ _ _ _ => 0xC#4

/-- A register operand as the number its presence bit and index make, six bits (R90). -/
def encodeOperand (x : RegOp) : Nat :=
  match x with
  | none => 0
  | some r => 2 ^ 5 + r % 2 ^ 5

/-- The prediction bit (R96). -/
def encodePrediction (p : Prediction) : Nat :=
  match p with
  | .alwaysNotTaken => 0
  | .alwaysTaken => 1

/-- The layout of R81: `op` at bit 60, operand a at 54, b at 48, c at 42, `z` = 0, `lo` at 0. -/
def layoutWord (op : BitVec 4) (a b c : RegOp) (lo : BitVec 32) : CommandWord :=
  BitVec.ofNat 64 (op.toNat <<< 60 + encodeOperand a <<< 54 + encodeOperand b <<< 48 + encodeOperand c <<< 42
    + lo.toNat)

/-- The `lo` field of CONFIGURE (R96): `index_bits` at bit 0, `block_size_words` at 6, `associativity` at 11,
`branch_prediction` at 27. -/
def layoutConfiguration (indexBits blockSizeWords associativity : Nat) (p : Prediction) : BitVec 32 :=
  BitVec.ofNat 32 (encodePrediction p <<< 27 + (associativity % 2 ^ 16) <<< 11 + (blockSizeWords % 2 ^ 5) <<< 6
    + indexBits % 2 ^ 6)

/-- The encoder: the word of a well-formed command (R81 to R83, R90 to R92, R96). -/
def encode (i : Instr) : CommandWord :=
  match i with
  | .processNop addr => layoutWord i.opcode none none none addr
  | .processRtype addr dest src1 src2 => layoutWord i.opcode dest src1 src2 addr
  | .processLoad addr dest base => layoutWord i.opcode dest base none addr
  | .processStore addr src base => layoutWord i.opcode src base none addr
  | .processBranch addr => layoutWord i.opcode none none none addr
  | .processJump addr => layoutWord i.opcode none none none addr
  | .processSyscall addr => layoutWord i.opcode none none none addr
  | .lookup addr => layoutWord i.opcode none none none addr
  | .advance => layoutWord i.opcode none none none 0#32
  | .fetchAccess addr => layoutWord i.opcode none none none addr
  | .finalize => layoutWord i.opcode none none none 0#32
  | .configure ib bsw assoc p => layoutWord i.opcode none none none (layoutConfiguration ib bsw assoc p)

/-- The rows of R83, each its match and its mask, in the order of spec/opcode_table.json: a word selects a row when
`word & mask = match`. -/
def opcodeRows : List (CommandWord × CommandWord) :=
  [(0x0000000000000000#64, 0xFFFFFFFF00000000#64),
   (0x1800000000000000#64, 0xF80003FF00000000#64),
   (0x2800000000000000#64, 0xF800FFFF00000000#64),
   (0x3800000000000000#64, 0xF800FFFF00000000#64),
   (0x4000000000000000#64, 0xFFFFFFFF00000000#64),
   (0x5000000000000000#64, 0xFFFFFFFF00000000#64),
   (0x6000000000000000#64, 0xFFFFFFFF00000000#64),
   (0x8000000000000000#64, 0xFFFFFFFF00000000#64),
   (0x9000000000000000#64, 0xFFFFFFFFFFFFFFFF#64),
   (0xA000000000000000#64, 0xFFFFFFFF00000000#64),
   (0xB000000000000000#64, 0xFFFFFFFFFFFFFFFF#64),
   (0xC000000000000000#64, 0xFFFFFFFFF0000000#64)]

/-- The `match` value of a command's row of R83 (spec/opcode_table.json, "match"). -/
def Instr.rowMatch : Instr → CommandWord
  | .processNop _ => 0x0000000000000000#64
  | .processRtype _ _ _ _ => 0x1800000000000000#64
  | .processLoad _ _ _ => 0x2800000000000000#64
  | .processStore _ _ _ => 0x3800000000000000#64
  | .processBranch _ => 0x4000000000000000#64
  | .processJump _ => 0x5000000000000000#64
  | .processSyscall _ => 0x6000000000000000#64
  | .lookup _ => 0x8000000000000000#64
  | .advance => 0x9000000000000000#64
  | .fetchAccess _ => 0xA000000000000000#64
  | .finalize => 0xB000000000000000#64
  | .configure _ _ _ _ => 0xC000000000000000#64

/-- The `mask` value of a command's row of R83. -/
def Instr.rowMask : Instr → CommandWord
  | .processNop _ | .processBranch _ | .processJump _ | .processSyscall _ => 0xFFFFFFFF00000000#64
  | .processRtype _ _ _ _ => 0xF80003FF00000000#64
  | .processLoad _ _ _ | .processStore _ _ _ => 0xF800FFFF00000000#64
  | .lookup _ | .fetchAccess _ => 0xFFFFFFFF00000000#64
  | .advance | .finalize => 0xFFFFFFFFFFFFFFFF#64
  | .configure _ _ _ _ => 0xFFFFFFFFF0000000#64

end Sys2Proof
end

