-- ==== Sys2Proof/Machine/State.lean ====
section
/-! DEFINITION. The state of the block (10_state.md R51), the reasons a step can stop, and the state at power-on
(70_reset_and_hazards.md R253). -/

namespace Sys2Proof.Machine

/-- The seven instruction kinds (10_state.md R31). -/
inductive Kind where
  | nop | rtype | load | store | branch | jump | syscall
  deriving DecidableEq, Repr

/-- The five stages in pipeline depth order, FETCH first (00_scope.md R13). -/
inductive Stage where
  | fetch | decode | alu | mem | writeback
  deriving DecidableEq, Repr

/-- What one pipeline stage holds: a tagged union over the kinds with the operand fields of R31 and no others. -/
inductive Slot where
  | nop (addr : Addr)
  | rtype (addr : Addr) (dest src1 src2 : RegOp)
  | load (addr : Addr) (dest base : RegOp)
  | store (addr : Addr) (src base : RegOp)
  | branch (addr : Addr)
  | jump (addr : Addr)
  | syscall (addr : Addr)
  deriving DecidableEq, Repr

/-- The pipeline register bank: exactly one slot per stage (R30). -/
structure Bank where
  fetch : Slot
  decode : Slot
  alu : Slot
  mem : Slot
  writeback : Slot
  deriving DecidableEq, Repr

/-- A cache line: tags only, no data (R24, R25). -/
structure Line where
  valid : Bool
  tag : Nat
  age : Nat
  deriving DecidableEq, Repr

/-- A set: its lines in index order, `associativity` of them (R26). -/
abbrev CacheSet := List Line

/-- The four configuration inputs, written only by CONFIGURE (R22). The derived constants of R23 are functions of
them. -/
structure Cfg where
  indexBits : Nat
  blockSizeWords : Nat
  associativity : Nat
  branchPrediction : Prediction
  deriving DecidableEq, Repr

/-- The seven statistics counters, natural numbers without an upper bound (R40). -/
structure Counters where
  cacheAccess : Nat
  cacheHit : Nat
  cacheMiss : Nat
  cycleCount : Nat
  retiredCount : Nat
  branchCount : Nat
  correctBranchCount : Nat
  deriving DecidableEq, Repr

/-- One configured block (R51). `sets` is the spec's array `set`, by index in one canonical form: indices strictly
rising, and no entry equal to what an unlisted index reads as, the set CONFIGURE leaves (R50). -/
structure Instance where
  cfg : Cfg
  sets : List (Nat × CacheSet)
  bank : Bank
  ctr : Counters
  deriving DecidableEq, Repr

/-- The two exceptions, both fatal (60_exceptions.md R220). -/
inductive FatalCause where
  | configurationError
  | parseError
  deriving DecidableEq, Repr

/-- What a command answers (30_encoding.md R85). -/
inductive Response where
  | ok
  | hit
  | miss
  | done
  | refused
  | fatal (cause : FatalCause)
  deriving DecidableEq, Repr

/-- The whole state: the spec's `State` record (R51: `inst` and `fatal`), the spec's `Config` argument (`params`, R9:
no command changes it), and the model's own command port (`pending`, the words issued and not yet taken, next first;
`response`, what the last command answered). -/
structure State where
  params : Params
  inst : Option Instance
  fatal : Option FatalCause
  pending : List CommandWord
  response : Option Response
  deriving DecidableEq, Repr

/-- Reasons a step stops with a fault: none. Both exceptions of the block are next states in which `fatal` holds the
cause (R224), and every command sequence has a defined result (70_reset_and_hazards.md R260); nobody raises a fault,
which is safe. -/
inductive Fault where
  deriving DecidableEq, Repr

/-- Reasons a step answers that it has no meaning. -/
inductive Refusal where
  /-- Raised only by an arm of `exec` for an instruction that has no meaning yet; no arm is left that raises it. Safe. -/
  | notModelled (mnemonic : String)
  deriving DecidableEq, Repr

/-- Power-on (R253): no instance, no fatal cause. No command has been issued and none answered. -/
def State.reset : State where
  params := Config.params
  inst := none
  fatal := none
  pending := []
  response := none

end Sys2Proof.Machine
end

