-- ==== Sys2Proof/Machine/Operands.lean ====
section
/-! DEFINITION. Slots and their operands: the fields of a slot (10_state.md R31), the empty slot (R32), and when two
register operands are equal (R33). -/

namespace Sys2Proof.Machine

/-- The detector's equality: both present and the same index; an absent operand equals nothing, not even another
absent one (R33, D5). -/
def regEq (x y : RegOp) : Bool :=
  match x, y with
  | some p, some q => p == q
  | _, _ => false

/-- The kind tag (R31, D3): a PROCESS command's `op` is the tag of the kind it writes (30_encoding.md R83). -/
def Kind.tag : Kind → Nat
  | .nop => 0
  | .rtype => 1
  | .load => 2
  | .store => 3
  | .branch => 4
  | .jump => 5
  | .syscall => 6

/-- The `kind` of a slot. -/
def Slot.kind : Slot → Kind
  | .nop _ => .nop
  | .rtype _ _ _ _ => .rtype
  | .load _ _ _ => .load
  | .store _ _ _ => .store
  | .branch _ => .branch
  | .jump _ => .jump
  | .syscall _ => .syscall

/-- The `addr` of a slot, HD's `instruction_address`. -/
def Slot.addr : Slot → Addr
  | .nop addr => addr
  | .rtype addr _ _ _ => addr
  | .load addr _ _ => addr
  | .store addr _ _ => addr
  | .branch addr => addr
  | .jump addr => addr
  | .syscall addr => addr

/-- `EMPTY`: kind NOP, address 0, no operand fields (R32). -/
def Slot.empty : Slot := .nop 0#32

/-- A slot that counts at retirement: its address is not 0, whatever its kind (42_pipeline_driver.md R161). -/
def Slot.counts (x : Slot) : Bool := x.addr != 0#32

/-- The operands R34 says are always present. -/
def Slot.mandatoryPresent : Slot → Bool
  | .rtype _ dest _ _ => dest.isSome
  | .load _ dest _ => dest.isSome
  | .store _ src _ => src.isSome
  | .nop _ | .branch _ | .jump _ | .syscall _ => true

/-- The number of a stage, 0 for FETCH to 4 for WRITEBACK (00_scope.md R13). -/
def Stage.number : Stage → Nat
  | .fetch => 0
  | .decode => 1
  | .alu => 2
  | .mem => 3
  | .writeback => 4

/-- `bank[S]` (R12, R30). -/
def Bank.at (b : Bank) : Stage → Slot
  | .fetch => b.fetch
  | .decode => b.decode
  | .alu => b.alu
  | .mem => b.mem
  | .writeback => b.writeback

/-- The bank as an array, index 0 = FETCH to 4 = WRITEBACK (R51). -/
def Bank.slots (b : Bank) : List Slot := [b.fetch, b.decode, b.alu, b.mem, b.writeback]

/-- All five slots EMPTY, the reset value (R50). -/
def Bank.empty : Bank where
  fetch := Slot.empty
  decode := Slot.empty
  alu := Slot.empty
  mem := Slot.empty
  writeback := Slot.empty

end Sys2Proof.Machine
end

