-- ==== Sys2Proof/Machine/Flags.lean ====
section
/-! DEFINITION. The one-bit conditions the block computes. It has no condition codes and no arithmetic flags
(10_state.md R36); its conditions are those of the hazard and stall detector (41_hazard_detector.md), each a function of
the pre-advance bank and the static prediction, computed and consumed inside one ADVANCE. -/

namespace Sys2Proof.Machine

/-- The branch check fires: the slot standing in DECODE is a BRANCH (R140). -/
def branchInDecode (b : Bank) : Bool := b.decode.kind == .branch

/-- Taken: the slot in FETCH, of any kind, is not at the branch's address plus 4 modulo 2^32 (R141). -/
def branchTaken (b : Bank) : Bool := b.fetch.addr != b.decode.addr + BitVec.ofNat 32 Config.instrBytes

/-- The outcome matches the static prediction (R142). -/
def branchPredicted (p : Prediction) (b : Bank) : Bool := branchTaken b == (p == .alwaysTaken)

/-- The load-use hazard: a LOAD in MEM whose `dest` is a source of the RTYPE in ALU (R144). -/
def loadUse (b : Bank) : Bool :=
  match b.mem, b.alu with
  | .load _ dest _, .rtype _ _ src1 src2 => regEq src1 dest || regEq src2 dest
  | _, _ => false

/-- The store-dependency hazard: a STORE in MEM whose `base` is the `dest` of the RTYPE in ALU (R146). -/
def storeDependency (b : Bank) : Bool :=
  match b.mem, b.alu with
  | .store _ _ base, .rtype _ dest _ _ => regEq dest base
  | _, _ => false

/-- The stall count of DETECT: one unit per hazard reason (R148). -/
def stallCount (p : Prediction) (b : Bank) : Nat :=
  (branchInDecode b && !branchPredicted p b).toNat + (loadUse b).toNat + (storeDependency b).toNat

end Sys2Proof.Machine
end

