-- ==== Sys2Proof/Machine/Ops.lean ====
section
/-! DEFINITION. The operations the meanings share: the tag store's array of sets (10_state.md R24 to R26), the counters
(R40), one ADVANCE_BODY and its pieces (42_pipeline_driver.md R160), the command port, and raising an exception
(60_exceptions.md R224). -/

namespace Sys2Proof.Machine

/-! The array of sets. -/

/-- A line as CONFIGURE leaves it (R50, D12). -/
def freshLine : Line := { valid := false, tag := 0, age := 0 }

/-- A set as CONFIGURE leaves it: `associativity` invalid lines (R50). -/
def freshSet (assoc : Nat) : CacheSet := List.replicate assoc freshLine

/-- `set[i]`: an index the list does not hold reads as the fresh set. -/
def readSet (assoc : Nat) (sets : List (Nat × CacheSet)) (i : Nat) : CacheSet :=
  match sets with
  | [] => freshSet assoc
  | (j, v) :: rest => if j = i then v else readSet assoc rest i

/-- One entry in front of a list, unless it is what an unlisted index reads as. -/
def consSet (assoc i : Nat) (v : CacheSet) (rest : List (Nat × CacheSet)) : List (Nat × CacheSet) :=
  if v = freshSet assoc then rest else (i, v) :: rest

/-- `set[i] <- v`, keeping the canonical form. -/
def writeSet (assoc : Nat) (sets : List (Nat × CacheSet)) (i : Nat) (v : CacheSet) : List (Nat × CacheSet) :=
  match sets with
  | [] => consSet assoc i v []
  | (j, u) :: rest =>
    if i < j then consSet assoc i v ((j, u) :: rest)
    else if i = j then consSet assoc i v rest
    else (j, u) :: writeSet assoc rest i v

/-- The canonical form: indices strictly rising, and no entry equal to the fresh set. -/
def setsCanonical (assoc : Nat) (sets : List (Nat × CacheSet)) : Bool :=
  decide ((sets.map Prod.fst).Pairwise (· < ·)) && sets.all (fun e => e.2 != freshSet assoc)

/-! Updates of an instance, field by field. -/

/-- The instance with other sets. -/
def Instance.withSets (c : Instance) (sets : List (Nat × CacheSet)) : Instance := { c with sets := sets }

/-- The instance with another bank. -/
def Instance.withBank (c : Instance) (bank : Bank) : Instance := { c with bank := bank }

/-- The instance with other counters. -/
def Instance.withCtr (c : Instance) (ctr : Counters) : Instance := { c with ctr := ctr }

/-- `set[i]` of an instance. -/
def Instance.set (c : Instance) (i : Nat) : CacheSet := readSet c.cfg.associativity c.sets i

/-- The instance with one set written. -/
def Instance.putSet (c : Instance) (i : Nat) (v : CacheSet) : Instance :=
  c.withSets (writeSet c.cfg.associativity c.sets i v)

/-! The counters (R40): each is only ever incremented by 1. -/

/-- All seven counters 0, their reset value (R50). -/
def Counters.zero : Counters := ⟨0, 0, 0, 0, 0, 0, 0⟩

/-- A LOOKUP's counts: the access, and the hit or the miss (40_cache.md R114, R116, R117). -/
def Counters.countLookup (k : Counters) (hit : Bool) : Counters :=
  { k with
    cacheAccess := k.cacheAccess + 1
    cacheHit := k.cacheHit + hit.toNat
    cacheMiss := k.cacheMiss + (!hit).toNat }

/-- One retirement, if the slot leaving WRITEBACK counts (R161). -/
def Counters.countRetirement (k : Counters) (leaving : Slot) : Counters :=
  { k with retiredCount := k.retiredCount + leaving.counts.toNat }

/-- One cycle (R162). -/
def Counters.countCycle (k : Counters) : Counters := { k with cycleCount := k.cycleCount + 1 }

/-- A branch evaluation's counts, if a BRANCH stands in DECODE (R140, R142). -/
def Counters.countBranch (k : Counters) (p : Prediction) (b : Bank) : Counters :=
  { k with
    branchCount := k.branchCount + (branchInDecode b).toNat
    correctBranchCount := k.correctBranchCount + (branchInDecode b && branchPredicted p b).toNat }

/-! The steps of ADVANCE_BODY (R160). -/

/-- Step 4: every slot moves one stage toward WRITEBACK, FETCH is cleared (R165). -/
def Bank.shift (b : Bank) : Bank where
  fetch := Slot.empty
  decode := b.fetch
  alu := b.decode
  mem := b.alu
  writeback := b.mem

/-- The bank with a new slot in FETCH, the single insertion point (43_dispatch.md R190). -/
def Bank.insert (b : Bank) (x : Slot) : Bank := { b with fetch := x }

/-- Step 1: count a retirement if WRITEBACK's address is nonzero (R161). -/
def Instance.retire (c : Instance) : Instance := c.withCtr (c.ctr.countRetirement c.bank.writeback)

/-- Step 2: DETECT, the stall count and the branch counters; nothing else is written (R148, R149). -/
def Instance.detect (c : Instance) : Nat × Instance :=
  (stallCount c.cfg.branchPrediction c.bank, c.withCtr (c.ctr.countBranch c.cfg.branchPrediction c.bank))

/-- Steps 3 and 4: count the cycle and shift (R162, R165). -/
def Instance.tickAndShift (c : Instance) : Instance :=
  (c.withCtr c.ctr.countCycle).withBank c.bank.shift

/-- The write of FETCH by a PROCESS command (43_dispatch.md R190). -/
def Instance.insert (c : Instance) (x : Slot) : Instance := c.withBank (c.bank.insert x)

/-- `repeat n times` (R12). -/
def repeatTimes {α : Type} (n : Nat) (f : α → α) (x : α) : α :=
  match n with
  | 0 => x
  | k + 1 => repeatTimes k f (f x)

/-- How many ADVANCE_BODYs can nest when replays detect again: the outermost and three inside it (R166). -/
def replayDepth : Nat := 4

/-- ADVANCE_BODY (R160). `depth` bounds the nesting of replays that detect; R166 shows that `replayDepth` is enough, so
the case of depth 0, which replays nothing, is never asked for a replay. -/
def Instance.advanceBody (redetect : Bool) (depth : Nat) (detects : Bool) (c : Instance) : Instance :=
  match depth with
  | 0 => c.retire.tickAndShift
  | d + 1 =>
    if detects then
      repeatTimes c.retire.detect.1 (Instance.advanceBody redetect d redetect) c.retire.detect.2.tickAndShift
    else c.retire.tickAndShift

/-- ADVANCE: ADVANCE_BODY with detection, and all its replays (R160, R163, R166). -/
def Instance.advance (p : Params) (c : Instance) : Instance := c.advanceBody p.replayRedetect replayDepth true

/-! The command port and the fatal register. -/

/-- The state with another instance. -/
def State.withInst (s : State) (c : Option Instance) : State := { s with inst := c }

/-- The state with another fatal cause. -/
def State.withFatal (s : State) (f : Option FatalCause) : State := { s with fatal := f }

/-- The state with other words waiting at the command port. -/
def State.withPending (s : State) (ws : List CommandWord) : State := { s with pending := ws }

/-- The command answers (R85). -/
def State.answer (s : State) (r : Response) : State := { s with response := some r }

/-- The command is refused: nothing but the answer changes (10_state.md R47, R224). -/
def State.refuse (s : State) : State := s.answer .refused

/-- Exception entry (R224): one state change, `fatal <- cause`; nothing is saved, no mode changes, there is no handler.
There is no return (R226). -/
def State.raiseFatal (s : State) (cause : FatalCause) : State := (s.withFatal (some cause)).answer (.fatal cause)

/-- What an ill-formed command does: ParseError, or refused in the fatal state and before the first CONFIGURE
(R222, R224, 70_reset_and_hazards.md R253). -/
def State.parseError (s : State) : State :=
  match s.fatal, s.inst with
  | none, some _ => s.raiseFatal .parseError
  | _, _ => s.refuse

/-- What a command other than CONFIGURE does: `f` on the current instance, or refused in the fatal state and before the
first CONFIGURE (R224). `f` gives the instance after the command and its answer. -/
def State.onInstance (s : State) (f : Instance → Instance × Response) : State :=
  match s.fatal, s.inst with
  | none, some c => (s.withInst (some (f c).1)).answer (f c).2
  | _, _ => s.refuse

/-- The next word at the command port, if the host has issued one, and the state without it (R9). -/
def State.takeWord (s : State) : Option (CommandWord × State) :=
  match s.pending with
  | [] => none
  | w :: rest => some (w, s.withPending rest)

/-- The state in which `w` is the next word at the command port, in place of the one that was. -/
def State.placeWord (s : State) (w : CommandWord) : State := s.withPending (w :: s.pending.tail)

/-- What a step does while the host issues no command: nothing (R228: every state change is the effect of a host
command). -/
def State.idle (s : State) : State := s

end Sys2Proof.Machine
end

