-- ==== Sys2Proof/Machine/Cache.lean ====
section
/-! DEFINITION. The address decoder and the cache engine (40_cache.md), and the meaning of LOOKUP. -/

namespace Sys2Proof.Machine

/-! Derived geometry (R23, R110). -/

/-- `block_offset_bits = 2 * block_size_words` (R110). -/
def Cfg.blockOffsetBits (g : Cfg) : Nat := 2 * g.blockSizeWords

/-- `num_sets = 2^index_bits` (R23). -/
def Cfg.numSets (g : Cfg) : Nat := 2 ^ g.indexBits

/-- `tag_bits = 32 - index_bits - block_offset_bits` (R23). -/
def Cfg.tagBits (g : Cfg) : Nat := Config.addrW - g.indexBits - g.blockOffsetBits

/-- `line_size`, the block size in bytes (00_scope.md R7, 10_state.md R28). -/
def Cfg.lineSize (g : Cfg) : Nat := 4 * g.blockSizeWords

/-! The address decoder. -/

/-- The set an address selects (R111). -/
def Cfg.index (g : Cfg) (addr : Addr) : Nat := (addr.toNat >>> g.blockOffsetBits) &&& (2 ^ g.indexBits - 1)

/-- The tag of an address (R112). -/
def Cfg.tag (g : Cfg) (addr : Addr) : Nat := addr.toNat >>> (g.indexBits + g.blockOffsetBits)

/-- The block offset of an address, the bits the decoder discards (R121, 20_memory.md R63). -/
def Cfg.offset (g : Cfg) (addr : Addr) : Nat := addr.toNat % 2 ^ g.blockOffsetBits

/-! One set. -/

/-- The hit test: the lowest valid line with the tag (R115). -/
def findHit (t : Nat) (ls : CacheSet) : Option Nat := ls.findIdx? (fun l => l.valid && l.tag == t)

/-- The first empty line (R117). -/
def findEmpty (ls : CacheSet) : Option Nat := ls.findIdx? (fun l => !l.valid)

/-- The highest age of a set (R118). -/
def maxAge (ls : CacheSet) : Nat := ls.foldr (fun l m => max l.age m) 0

/-- The lowest line with the highest age (R118). -/
def findOldest (ls : CacheSet) : Option Nat := ls.findIdx? (fun l => l.age == maxAge ls)

/-- The replacement target of a miss: an empty line before any eviction (R117, R118). -/
def findVictim (ls : CacheSet) : Option Nat :=
  match findEmpty ls with
  | some w => some w
  | none => findOldest ls

/-- The insertion: the new tag, and valid; the age follows in the recency update (R119). -/
def insertTag (t w : Nat) (ls : CacheSet) : CacheSet :=
  ls.modify w (fun l => { l with valid := true, tag := t })

/-- One line in the recency update: age 0 for the line used, one more for another valid line (R120). -/
def ageLine (used : Bool) (l : Line) : Line :=
  if used then { l with age := 0 } else if l.valid then { l with age := l.age + 1 } else l

/-- The recency update, with `w` the line that hit or was filled (R120). -/
def refresh (w : Nat) (ls : CacheSet) : CacheSet := ls.mapIdx (fun k l => ageLine (k == w) l)

/-- A lookup of tag `t` in one set: the set after it, and whether it hit (R113). A set without lines, which no
legal configuration has (00_scope.md R7), has no line to fill. -/
def lookupSet (t : Nat) (ls : CacheSet) : CacheSet × Bool :=
  match findHit t ls with
  | some w => (refresh w ls, true)
  | none =>
    match findVictim ls with
    | some w => (refresh w (insertTag t w ls), false)
    | none => (ls, false)

/-! LOOKUP. -/

/-- Whether an address is resident. -/
def Instance.hits (c : Instance) (addr : Addr) : Bool :=
  (lookupSet (c.cfg.tag addr) (c.set (c.cfg.index addr))).2

/-- `lookup_and_update(address)`: the counters and the one set the address selects (R113 to R120). -/
def Instance.lookup (c : Instance) (addr : Addr) : Instance :=
  (c.putSet (c.cfg.index addr) (lookupSet (c.cfg.tag addr) (c.set (c.cfg.index addr))).1).withCtr
    (c.ctr.countLookup (c.hits addr))

/-- The answer of a lookup (R113, 30_encoding.md R85). -/
def lookupAnswer (hit : Bool) : Response := if hit then .hit else .miss

/-- LOOKUP (R113). -/
def execLookup (addr : Addr) (s : State) : Host.Outcome State Fault Refusal :=
  .next (s.onInstance (fun c => (c.lookup addr, lookupAnswer (c.hits addr))))

end Sys2Proof.Machine
end

