-- ==== Sys2Proof/Machine/Construct.lean ====
section
/-! DEFINITION. Construction and reset (70_reset_and_hazards.md): CONFIGURE, the only reset the block has (R250). -/

namespace Sys2Proof.Machine

/-- The size the capacity check bounds, in bytes (10_state.md R28). -/
def Cfg.capacityBytes (g : Cfg) : Nat := g.associativity * 2 ^ g.indexBits * g.lineSize

/-- The legal ranges of the configuration inputs (00_scope.md R7). -/
def Cfg.inRange (g : Cfg) : Bool :=
  decide (1 ≤ g.blockSizeWords) && decide (1 ≤ g.associativity)
    && decide (g.indexBits + g.blockOffsetBits ≤ Config.addrW)

/-- A configuration that CONFIGURE accepts: none of the four conditions of R221 holds. -/
def Cfg.legal (p : Params) (g : Cfg) : Bool := g.inRange && decide (g.capacityBytes ≤ p.capacityLimit)

/-- The fresh instance: every piece of state at the value of R50. -/
def freshInstance (g : Cfg) : Instance where
  cfg := g
  sets := []
  bank := Bank.empty
  ctr := Counters.zero

/-- CONFIGURE with a configuration (R250): a new instance, or ConfigurationError and no instance (R221, R225, R251).
It is accepted in every state. -/
def State.construct (s : State) (g : Cfg) : State :=
  if Cfg.legal s.params g then ((s.withInst (some (freshInstance g))).withFatal none).answer .ok
  else (s.withInst none).raiseFatal .configurationError

/-- CONFIGURE (R250). -/
def execConfigure (indexBits blockSizeWords associativity : Nat) (branchPrediction : Prediction) (s : State) :
    Host.Outcome State Fault Refusal :=
  .next (s.construct ⟨indexBits, blockSizeWords, associativity, branchPrediction⟩)

end Sys2Proof.Machine
end

