-- ==== Sys2Proof/Machine/Driver.lean ====
section
/-! DEFINITION. The pipeline driver's commands (42_pipeline_driver.md): ADVANCE and FINALIZE. -/

namespace Sys2Proof.Machine

/-- The drain: advance until all five slots are EMPTY, at most `fuel` top-level advances (R170). -/
def Instance.drain (p : Params) (fuel : Nat) (c : Instance) : Instance :=
  match fuel with
  | 0 => c
  | k + 1 => if c.bank = Bank.empty then c else Instance.drain p k (c.advance p)

/-- FINALIZE: five top-level advances are enough to empty any bank (R171). -/
def Instance.finalize (p : Params) (c : Instance) : Instance := c.drain p Config.stages

/-- ADVANCE (R160). -/
def execAdvance (s : State) : Host.Outcome State Fault Refusal :=
  .next (s.onInstance (fun c => (c.advance s.params, .done)))

/-- FINALIZE (R170). -/
def execFinalize (s : State) : Host.Outcome State Fault Refusal :=
  .next (s.onInstance (fun c => (c.finalize s.params, .done)))

end Sys2Proof.Machine
end

