-- ==== Sys2Proof/Machine/FetchMiss.lean ====
section
/-! DEFINITION. The fetch-side miss penalty (44_fetch_miss.md): FETCH_ACCESS. -/

namespace Sys2Proof.Machine

/-- FETCH_ACCESS: the lookup first and completely, then on a miss `MISS_PENALTY - 1` top-level advances
(R210, R211). -/
def Instance.fetchAccess (p : Params) (addr : Addr) (c : Instance) : Instance :=
  if c.hits addr then c.lookup addr
  else repeatTimes (p.missPenalty - 1) (Instance.advance p) (c.lookup addr)

/-- FETCH_ACCESS (R210). -/
def execFetchAccess (addr : Addr) (s : State) : Host.Outcome State Fault Refusal :=
  .next (s.onInstance (fun c => (c.fetchAccess s.params addr, lookupAnswer (c.hits addr))))

end Sys2Proof.Machine
end

