-- ==== Sys2Proof/Machine/Process.lean ====
section
/-! DEFINITION. The seven PROCESS commands (43_dispatch.md): one ADVANCE, then the write of FETCH. -/

namespace Sys2Proof.Machine

/-- The common shape (R190): ADVANCE with all its replays, then the new slot in the cleared FETCH. -/
def Instance.process (p : Params) (x : Slot) (c : Instance) : Instance := (c.advance p).insert x

/-- A PROCESS command: ParseError where a mandatory operand is absent (10_state.md R34, 60_exceptions.md R222), before
anything is done; else R190. -/
def State.process (s : State) (x : Slot) : State :=
  if x.mandatoryPresent then s.onInstance (fun c => (c.process s.params x, .done)) else s.parseError

/-- PROCESS_NOP (R191): with address 0 it writes EMPTY. -/
def execProcessNop (addr : Addr) (s : State) : Host.Outcome State Fault Refusal :=
  .next (s.process (.nop addr))

/-- PROCESS_RTYPE (R192). -/
def execProcessRtype (addr : Addr) (dest src1 src2 : RegOp) (s : State) : Host.Outcome State Fault Refusal :=
  .next (s.process (.rtype addr dest src1 src2))

/-- PROCESS_LOAD (R193). -/
def execProcessLoad (addr : Addr) (dest base : RegOp) (s : State) : Host.Outcome State Fault Refusal :=
  .next (s.process (.load addr dest base))

/-- PROCESS_STORE (R194). -/
def execProcessStore (addr : Addr) (src base : RegOp) (s : State) : Host.Outcome State Fault Refusal :=
  .next (s.process (.store addr src base))

/-- PROCESS_BRANCH (R195). -/
def execProcessBranch (addr : Addr) (s : State) : Host.Outcome State Fault Refusal :=
  .next (s.process (.branch addr))

/-- PROCESS_JUMP (R196). -/
def execProcessJump (addr : Addr) (s : State) : Host.Outcome State Fault Refusal :=
  .next (s.process (.jump addr))

/-- PROCESS_SYSCALL (R197): a slot like any other; it raises no trap (R201). -/
def execProcessSyscall (addr : Addr) (s : State) : Host.Outcome State Fault Refusal :=
  .next (s.process (.syscall addr))

end Sys2Proof.Machine
end

