-- ==== Sys2Proof/Machine/Dispatch.lean ====
section
/-! DEFINITION. One arm per command (30_encoding.md R84), each one call of its meaning. -/

namespace Sys2Proof.Machine

def exec (i : Instr) (s : State) : Host.Outcome State Fault Refusal :=
  match i with
  | .processNop addr => Sys2Proof.Machine.execProcessNop addr s
  | .processRtype addr dest src1 src2 => Sys2Proof.Machine.execProcessRtype addr dest src1 src2 s
  | .processLoad addr dest base => Sys2Proof.Machine.execProcessLoad addr dest base s
  | .processStore addr src base => Sys2Proof.Machine.execProcessStore addr src base s
  | .processBranch addr => Sys2Proof.Machine.execProcessBranch addr s
  | .processJump addr => Sys2Proof.Machine.execProcessJump addr s
  | .processSyscall addr => Sys2Proof.Machine.execProcessSyscall addr s
  | .lookup addr => Sys2Proof.Machine.execLookup addr s
  | .advance => Sys2Proof.Machine.execAdvance s
  | .fetchAccess addr => Sys2Proof.Machine.execFetchAccess addr s
  | .finalize => Sys2Proof.Machine.execFinalize s
  | .configure ib bsw assoc pred => Sys2Proof.Machine.execConfigure ib bsw assoc pred s

end Sys2Proof.Machine
end

