-- ==== Sys2Proof/Machine/Step.lean ====
section
/-! DEFINITION. One step of the machine: take the next command word, decode it, execute it (60_exceptions.md R224). -/

namespace Sys2Proof.Machine

/-- The spec's `step` (R224) on the next word at the command port; a step with no word issued changes nothing. -/
def step (s : State) : Host.Outcome State Fault Refusal :=
  match s.takeWord with
  | none => .next s.idle
  | some (w, s') =>
    match decode w with
    | .ok i => exec i s'
    | .error _ => .next s'.parseError

/-- `s` with the word the opcode table numbers `w` standing where `step` takes its next one: at the head of the command
port. -/
def State.withFetchWord (s : State) (nbits w : Nat) : State := s.placeWord (wordOfTable nbits w)

end Sys2Proof.Machine
end

