-- ==== Sys2Proof/Machine/HostProtocol.lean ====
section
/-! DEFINITION. The host's pseudo-commands, as their expansions into commands (30_encoding.md R102, R104;
44_fetch_miss.md R212, R217). They are protocols of the host, not commands of the block. -/

namespace Sys2Proof.Machine

/-- The PROCESS command that writes a given slot (43_dispatch.md R190). -/
def Slot.processCommand : Slot → Instr
  | .nop addr => .processNop addr
  | .rtype addr dest src1 src2 => .processRtype addr dest src1 src2
  | .load addr dest base => .processLoad addr dest base
  | .store addr src base => .processStore addr src base
  | .branch addr => .processBranch addr
  | .jump addr => .processJump addr
  | .syscall addr => .processSyscall addr

/-- STEP: FETCH_ACCESS of the instruction's address, then its PROCESS command (R104, R212). -/
def stepCommands (x : Slot) : List Instr := [.fetchAccess x.addr, x.processCommand]

/-- RUN: CONFIGURE, the steps in order, FINALIZE (R104, R217). -/
def runCommands (g : Cfg) (trace : List Slot) : List Instr :=
  .configure g.indexBits g.blockSizeWords g.associativity g.branchPrediction
    :: (trace.flatMap stepCommands ++ [.finalize])

end Sys2Proof.Machine
end

