-- ==== Sys2Proof/Machine/Readout.lean ====
section
/-! DEFINITION. What the host reads (60_exceptions.md R225, R236, R237): pure functions of the state, no command of the
block (43_dispatch.md R201). -/

namespace Sys2Proof.Machine

/-- The quotient of two counters, 0 where the denominator is 0 (R237). -/
def rate (numerator denominator : Nat) : ℚ :=
  if denominator = 0 then 0 else (numerator : ℚ) / (denominator : ℚ)

/-- The miss rate, an exact rational (R236). -/
def Counters.missRate (k : Counters) : ℚ := rate k.cacheMiss k.cacheAccess

/-- Cycles per instruction, an exact rational (R236). -/
def Counters.cpi (k : Counters) : ℚ := rate k.cycleCount k.retiredCount

/-- The reported outputs of the block (R236). -/
structure Report where
  ctr : Counters
  missRate : ℚ
  cpi : ℚ

/-- The read-out; before the first CONFIGURE there are no counters to read (70_reset_and_hazards.md R253). -/
def State.report (s : State) : Option Report :=
  match s.inst with
  | none => none
  | some c => some { ctr := c.ctr, missRate := c.ctr.missRate, cpi := c.ctr.cpi }

/-- The code of the fatal register: 0 none, 1 ConfigurationError, 2 ParseError (10_state.md R47, R220). -/
def State.fatalCode (s : State) : Nat :=
  match s.fatal with
  | none => 0
  | some .configurationError => 1
  | some .parseError => 2

end Sys2Proof.Machine
end

