-- ==== Sys2Proof/Safety.lean ====
section
/-! DEFINITION. The terms in which claims about the block are written: when it runs, the invariant of its state
(40_cache.md R125, 10_state.md R45), sequences of commands, what stands in the pipeline, and the least-recently-used
order of a set (R127). -/

namespace Sys2Proof.Machine

/-! Running and safe states. -/

/-- The block executes commands on instance `c`: it is configured and no fatal condition is recorded (R224). -/
def State.Running (s : State) (c : Instance) : Prop := s.fatal = none ∧ s.inst = some c

/-- The states in which every command but CONFIGURE is refused (R224, 70_reset_and_hazards.md R253). -/
def State.Closed (s : State) : Prop := s.fatal ≠ none ∨ s.inst = none

/-- A command that is no CONFIGURE. -/
def notConfigure : Instr → Bool
  | .configure _ _ _ _ => false
  | .processNop _ | .processRtype _ _ _ _ | .processLoad _ _ _ | .processStore _ _ _ => true
  | .processBranch _ | .processJump _ | .processSyscall _ => true
  | .lookup _ | .advance | .fetchAccess _ | .finalize => true

/-- Commands executed one after another, stopping at the first that does not answer a next state. -/
def execAll (is : List Instr) (s : State) : Host.Outcome State Fault Refusal :=
  match is with
  | [] => .next s
  | i :: rest =>
    match exec i s with
    | .next t => execAll rest t
    | .fault r => .fault r
    | .refused r => .refused r

/-! The invariant. -/

/-- The valid lines of a set, in index order. -/
def validLines (ls : CacheSet) : List Line := ls.filter (fun l => l.valid)

/-- The invariants of one set (R125 (a) to (e), but for which line it is that has age 0; R25; and the contents of an
invalid line, R50). -/
structure SetInv (g : Cfg) (ls : CacheSet) : Prop where
  /-- One line per way; so at most `associativity` of them are valid (R125 (a)). -/
  length_eq : ls.length = g.associativity
  /-- No two valid lines hold the same tag (R125 (b)). -/
  tags_distinct : (validLines ls).Pairwise (fun x y => x.tag ≠ y.tag)
  /-- The ages of the valid lines are pairwise distinct (R125 (c)). -/
  ages_distinct : (validLines ls).Pairwise (fun x y => x.age ≠ y.age)
  /-- A set with a valid line has a valid line of age 0 (R125 (d)). -/
  youngest : validLines ls ≠ [] → ∃ l ∈ validLines ls, l.age = 0
  /-- Lines are filled from index 0 upward (R125 (e)). -/
  filled_in_order : ls.Pairwise (fun x y => y.valid = true → x.valid = true)
  /-- An invalid line is as CONFIGURE left it (R50). -/
  invalid_fresh : ∀ l ∈ ls, l.valid = false → l = freshLine
  /-- A tag is a number of `tag_bits` bits (R25). -/
  tags_fit : ∀ l ∈ ls, l.tag < 2 ^ g.tagBits

/-- The counter invariants of R45. -/
structure CountersInv (k : Counters) : Prop where
  access_eq : k.cacheAccess = k.cacheHit + k.cacheMiss
  correct_le : k.correctBranchCount ≤ k.branchCount
  retired_le : k.retiredCount ≤ k.cycleCount

/-- The invariant of a configured block. -/
structure Instance.Inv (p : Params) (c : Instance) : Prop where
  /-- Its configuration passed CONFIGURE's checks (R7, R28). -/
  legal : Cfg.legal p c.cfg = true
  /-- The array of sets is in its one canonical form. -/
  canonical : setsCanonical c.cfg.associativity c.sets = true
  /-- Only existing sets are held (R24). -/
  indices : ∀ e ∈ c.sets, e.1 < c.cfg.numSets
  /-- Every set keeps the set invariants. -/
  set_inv : ∀ i, SetInv c.cfg (c.set i)
  /-- Every slot has the operands its kind always has (R34). -/
  slots : ∀ x ∈ c.bank.slots, x.mandatoryPresent = true
  /-- The counter invariants. -/
  counters : CountersInv c.ctr

/-- The invariant of the machine: the bound of R8 on `MISS_PENALTY`, and the instance's. -/
structure State.Inv (s : State) : Prop where
  penalty : 1 ≤ s.params.missPenalty
  inst_inv : ∀ c, s.inst = some c → Instance.Inv s.params c

/-! What stands in the pipeline. -/

/-- The slots in the bank that will count when they leave it (R161). -/
def Bank.inFlight (b : Bank) : Nat := b.slots.countP (fun x => decide (x.addr ≠ 0#32))

/-- The lowest stage that holds a non-EMPTY slot, and 5 for an all-EMPTY bank: `p` of R171. -/
def Bank.lowest (b : Bank) : Nat := b.slots.findIdx (fun x => decide (x ≠ .nop 0#32))

/-- The BRANCH slots that have not left DECODE yet. -/
def Bank.branchesAhead (b : Bank) : Nat := [b.fetch, b.decode].countP (fun x => decide (x.kind = .branch))

/-- A PROCESS command whose instruction counts at retirement (R161, R172). -/
def insertsCounting : Instr → Bool
  | .processNop addr | .processBranch addr | .processJump addr | .processSyscall addr => addr != 0#32
  | .processRtype addr _ _ _ => addr != 0#32
  | .processLoad addr _ _ | .processStore addr _ _ => addr != 0#32
  | .lookup _ | .advance | .fetchAccess _ | .finalize | .configure _ _ _ _ => false

/-! Least recently used. -/

/-- `ts` lists the tags of a set's valid lines from the most to the least recently used: in order of rising age. -/
def RecencyOrder (ls : CacheSet) (ts : List Nat) : Prop :=
  ∃ order : List Line, order.Perm (validLines ls) ∧ order.Pairwise (fun x y => x.age < y.age)
    ∧ order.map Line.tag = ts

/-- An exact LRU list of at most `assoc` tags after an access to tag `t`: `t` moves to the front, the least recently
used tag falls off the end of a full list. -/
def lruAccess (assoc t : Nat) (ts : List Nat) : List Nat := (t :: ts.erase t).take assoc

end Sys2Proof.Machine
end

