-- ==== Sys2Proof/Certificates/Slice0/Obligations.lean ====
section
/-! DEFINITION. The statements for the provers, from the numbered rules of spec/. Each docstring says which rule, or
which of the model's own choices (with its log entry), the statement formalises. The answer of a command (R85) stands in
the model's own field `response`, and the words the host has issued in `pending` (log entries 5 and 3). -/

open Sys2Proof Sys2Proof.Machine

/-! Encoding. -/

/-- Decoding the word of a well-formed command gives the command back, every operand at every value its field holds
(R81 to R83, R90 to R93, R96). -/
def Obligations.DecodeEncodeRoundTrip : Prop :=
  ∀ i : Instr, i.wellFormed = true → decode (encode i) = .ok i

/-- Each word has one meaning: a word that decodes is the encoding of what it decodes to, and that command is well
formed (R94: every word is one well-formed command or a ParseError). -/
def Obligations.EncodeDecodeRoundTrip : Prop :=
  ∀ (w : CommandWord) (i : Instr), decode w = .ok i → encode i = w ∧ i.wellFormed = true

/-- The words that decode are exactly those that select a row of R83 and whose absent operands b and c have a zero
index (R93 conditions (1) to (4): the masks hold the must-be-zero fields and operand a's presence). -/
def Obligations.WellFormedWordsAreTheTableRows : Prop :=
  ∀ w : CommandWord, (∃ i, decode w = .ok i) ↔
    (∃ row ∈ opcodeRows, w &&& row.2 = row.1)
      ∧ (w.extractLsb' 53 1 = 0#1 → w.extractLsb' 48 5 = 0#5)
      ∧ (w.extractLsb' 47 1 = 0#1 → w.extractLsb' 42 5 = 0#5)

/-- A word with op 0x7, 0xD, 0xE or 0xF decodes to no command, by name (R94). -/
def Obligations.ReservedOpcodesAreRejected : Prop :=
  ∀ w : CommandWord, (w.extractLsb' 60 4).toNat ∈ [0x7, 0xD, 0xE, 0xF] → decode w = .error .reservedOp

/-- The worked encodings of R105, and its five words that are not well formed. -/
def Obligations.WorkedEncodingsDecode : Prop :=
  (∀ e ∈ ([
      (.processRtype 0x00400010#32 (some 8) (some 9) (some 10), 0x1A29A80000400010#64),
      (.processRtype 0x00400014#32 (some 8) none none, 0x1A00000000400014#64),
      (.processLoad 0x00400018#32 (some 8) (some 29), 0x2A3D000000400018#64),
      (.processLoad 0x00400018#32 (some 8) none, 0x2A00000000400018#64),
      (.processStore 0x0040001C#32 (some 8) (some 29), 0x3A3D00000040001C#64),
      (.processBranch 0x00400020#32, 0x4000000000400020#64),
      (.processJump 0x00400024#32, 0x5000000000400024#64),
      (.processSyscall 0x00400028#32, 0x6000000000400028#64),
      (.processNop 0x0040002C#32, 0x000000000040002C#64),
      (.lookup 0x00000010#32, 0x8000000000000010#64),
      (.advance, 0x9000000000000000#64),
      (.fetchAccess 0x00400010#32, 0xA000000000400010#64),
      (.finalize, 0xB000000000000000#64),
      (.configure 2 1 1 .alwaysNotTaken, 0xC000000000000842#64),
      (.configure 7 4 2 .alwaysTaken, 0xC000000008001107#64)] : List (Instr × CommandWord)),
    encode e.1 = e.2 ∧ decode e.2 = .ok e.1)
  ∧ ∀ w ∈ [0x7000000000000000#64, 0x9000000000000001#64, 0x1229A80000400010#64, 0x2000000000400018#64,
      0x4800000000400020#64], ∀ i, decode w ≠ .ok i

/-! The step. -/

/-- A step takes the next command word off the port, decodes it, and is the command's execution (R224). The port is the
model's own form of the host's issuing of commands (log entry 3). -/
def Obligations.StepRunsDecodedCommand : Prop :=
  ∀ (s : State) (w : CommandWord) (rest : List CommandWord) (i : Instr),
    s.pending = w :: rest → decode w = .ok i → step s = exec i { s with pending := rest }

/-- A word the opcode table numbers, placed at the port, is the one the next step executes, in place of the word that was
next. The port and the numbering are the model's (log entries 3 and 13). -/
def Obligations.PlacedWordIsExecuted : Prop :=
  ∀ (s : State) (nbits w : Nat) (i : Instr), decodeTableWord nbits w = some i →
    step (s.withFetchWord nbits w) = exec i { s with pending := s.pending.tail }

/-- A word that is not well formed raises ParseError on a running block: `fatal` holds the cause and nothing else of the
block changes (R222, R224). -/
def Obligations.IllFormedWordRaisesParseError : Prop :=
  ∀ (s : State) (c : Instance) (w : CommandWord) (rest : List CommandWord),
    s.Running c → s.pending = w :: rest → (∀ i, decode w ≠ .ok i) →
      step s = .next { s with pending := rest, fatal := some .parseError, response := some (.fatal .parseError) }

/-- With no command issued a step changes nothing. This is the model's choice (log entry 4), after R228's sentence that
every state change is the effect of a host command. -/
def Obligations.StepWithoutCommandIsIdle : Prop :=
  ∀ s : State, s.pending = [] → step s = .next s

/-- Every step answers a next state (R260: every command sequence has one defined result) and leaves the named parameters
as they are (R8: no command changes them). That a step takes exactly the first word of a port that is not empty, and
leaves an empty port empty, is the model's own clause: the port is its form of R9's host, which issues commands one
after another (log entry 3), and a step with no command is the model's idle step (log entry 4). -/
def Obligations.EveryStepAnswersNextState : Prop :=
  ∀ s : State, ∃ t, step s = .next t ∧ t.pending = s.pending.tail ∧ t.params = s.params

/-- In the fatal state and before the first CONFIGURE every word that is no CONFIGURE, well formed or not, is refused,
and nothing but the answer changes (R224, R253; the port and the answer are the model's, log entries 3 and 5). -/
def Obligations.ClosedStateRefusesAllButConfigure : Prop :=
  ∀ (s : State) (w : CommandWord) (rest : List CommandWord),
    s.Closed → s.pending = w :: rest → (∀ ib bsw assoc pred, decode w ≠ .ok (.configure ib bsw assoc pred)) →
      step s = .next { s with pending := rest, response := some .refused }

/-- What a command does depends on neither the words behind it nor the last answer. The port and the answer are the
model's own fields (log entries 3 and 5); the rule behind it is that every command has one defined result (R9). -/
def Obligations.CommandsIgnoreThePort : Prop :=
  ∀ (i : Instr) (s : State) (ws : List CommandWord) (r : Option Response),
    ∃ t, exec i s = .next t ∧ exec i { s with pending := ws, response := r } = .next { t with pending := ws }

/-! CONFIGURE. -/

/-- Power-on: no instance and no fatal cause (R51, R253). -/
def Obligations.ResetIsUnconfigured : Prop :=
  State.reset.inst = none ∧ State.reset.fatal = none

/-- A CONFIGURE whose values are legal and within the capacity gives the fresh instance of R50, in every state
(R250). -/
def Obligations.ConfigureBuildsFreshInstance : Prop :=
  ∀ (s : State) (ib bsw assoc : Nat) (pred : Prediction),
    1 ≤ bsw → 1 ≤ assoc → ib + 2 * bsw ≤ 32 → assoc * 2 ^ ib * (4 * bsw) ≤ s.params.capacityLimit →
      ∃ c : Instance,
        exec (.configure ib bsw assoc pred) s
            = .next { s with inst := some c, fatal := none, response := some .ok }
          ∧ c.cfg = ⟨ib, bsw, assoc, pred⟩
          ∧ (∀ j, c.set j = List.replicate assoc ⟨false, 0, 0⟩)
          ∧ c.bank = ⟨.nop 0#32, .nop 0#32, .nop 0#32, .nop 0#32, .nop 0#32⟩
          ∧ c.ctr = ⟨0, 0, 0, 0, 0, 0, 0⟩

/-- A CONFIGURE for which one of the four conditions of R221 holds raises ConfigurationError, in every state. -/
def Obligations.ConfigureOutOfRangeIsFatal : Prop :=
  ∀ (s : State) (ib bsw assoc : Nat) (pred : Prediction),
    (bsw < 1 ∨ assoc < 1 ∨ ib + 2 * bsw > 32 ∨ assoc * 2 ^ ib * (4 * bsw) > s.params.capacityLimit) →
      ∃ t, exec (.configure ib bsw assoc pred) s = .next t
        ∧ t.fatal = some .configurationError ∧ t.response = some (.fatal .configurationError)
        ∧ t.params = s.params ∧ t.pending = s.pending

/-- No state survives a CONFIGURE: two runs from any two states with the same parameters (and the same words at the
model's port, log entry 3), with the same CONFIGURE and the same commands after it, end in the same state and the same
last answer (R255). -/
def Obligations.ConfigureForgetsEverything : Prop :=
  ∀ (s t : State) (ib bsw assoc : Nat) (pred : Prediction) (is : List Instr),
    s.params = t.params → s.pending = t.pending →
      execAll (.configure ib bsw assoc pred :: is) s = execAll (.configure ib bsw assoc pred :: is) t

/-! The address decoder. -/

/-- Tag, index and block offset neither overlap nor leave a gap, for every configuration with `index_bits +
block_offset_bits ≤ 32` and every address; index and tag are in range (R121, R111, R112). -/
def Obligations.DecoderPartitionsAddress : Prop :=
  ∀ (g : Cfg) (addr : Addr), g.indexBits + 2 * g.blockSizeWords ≤ 32 →
    addr.toNat = g.tag addr * 2 ^ (g.indexBits + 2 * g.blockSizeWords) + g.index addr * 2 ^ (2 * g.blockSizeWords)
        + addr.toNat % 2 ^ (2 * g.blockSizeWords)
      ∧ g.index addr < 2 ^ g.indexBits
      ∧ g.tag addr < 2 ^ (32 - g.indexBits - 2 * g.blockSizeWords)

/-- Two addresses select the same set and carry the same tag exactly when they agree above the block offset (R122). -/
def Obligations.SameBlockIffSameIndexAndTag : Prop :=
  ∀ (g : Cfg) (a b : Addr), (g.index a = g.index b ∧ g.tag a = g.tag b) ↔
    a.toNat / 2 ^ (2 * g.blockSizeWords) = b.toNat / 2 ^ (2 * g.blockSizeWords)

/-! The cache engine. -/

/-- LOOKUP completes: it counts one access and exactly one of hit and miss, it hits exactly when a valid line of the
selected set holds the tag, and it changes nothing but those counters and the selected set (R113, R114, R115). -/
def Obligations.LookupCountsAndTouchesOneSet : Prop :=
  ∀ (s : State) (c : Instance) (addr : Addr), s.Running c →
    ∃ (sets : List (Nat × CacheSet)) (hit : Bool),
      exec (.lookup addr) s = .next { s with
          inst := some { c with
            sets := sets
            ctr := { c.ctr with
              cacheAccess := c.ctr.cacheAccess + 1
              cacheHit := c.ctr.cacheHit + (if hit then 1 else 0)
              cacheMiss := c.ctr.cacheMiss + (if hit then 0 else 1) } }
          response := some (if hit then .hit else .miss) }
        ∧ (hit = true ↔ ∃ l ∈ c.set (c.cfg.index addr), l.valid = true ∧ l.tag = c.cfg.tag addr)
        ∧ ∀ j, j ≠ c.cfg.index addr → readSet c.cfg.associativity sets j = c.set j

/-- A hit counts as one, sets the age of the lowest matching line to 0, adds 1 to every other valid line's age in the
set, and changes no tag and no valid bit (R116, R115, R120). -/
def Obligations.LookupHitUpdatesAges : Prop :=
  ∀ (s : State) (c : Instance) (addr : Addr) (w : Nat) (l : Line), s.Running c →
    setsCanonical c.cfg.associativity c.sets = true →
    (c.set (c.cfg.index addr))[w]? = some l → l.valid = true → l.tag = c.cfg.tag addr →
    (∀ k m, k < w → (c.set (c.cfg.index addr))[k]? = some m → m.valid = true → m.tag ≠ c.cfg.tag addr) →
      ∃ c' : Instance, exec (.lookup addr) s = .next { s with inst := some c', response := some .hit }
        ∧ c'.ctr = { c.ctr with cacheAccess := c.ctr.cacheAccess + 1, cacheHit := c.ctr.cacheHit + 1 }
        ∧ (c'.set (c.cfg.index addr)).length = (c.set (c.cfg.index addr)).length
        ∧ ∀ k m, (c.set (c.cfg.index addr))[k]? = some m →
            (c'.set (c.cfg.index addr))[k]? = some
              (if k = w then { m with age := 0 } else if m.valid then { m with age := m.age + 1 } else m)

/-- A miss in a set with an empty line fills the lowest one, whatever the ages are: tag, valid, age 0; every valid line
of the set grows older by 1; no line is evicted (R117, R119, R120). -/
def Obligations.LookupMissFillsFirstEmptyLine : Prop :=
  ∀ (s : State) (c : Instance) (addr : Addr) (w : Nat) (e : Line), s.Running c →
    setsCanonical c.cfg.associativity c.sets = true →
    (∀ l ∈ c.set (c.cfg.index addr), l.valid = true → l.tag ≠ c.cfg.tag addr) →
    (c.set (c.cfg.index addr))[w]? = some e → e.valid = false →
    (∀ k m, k < w → (c.set (c.cfg.index addr))[k]? = some m → m.valid = true) →
      ∃ c' : Instance, exec (.lookup addr) s = .next { s with inst := some c', response := some .miss }
        ∧ c'.ctr = { c.ctr with cacheAccess := c.ctr.cacheAccess + 1, cacheMiss := c.ctr.cacheMiss + 1 }
        ∧ (c'.set (c.cfg.index addr)).length = (c.set (c.cfg.index addr)).length
        ∧ ∀ k m, (c.set (c.cfg.index addr))[k]? = some m →
            (c'.set (c.cfg.index addr))[k]? = some
              (if k = w then ⟨true, c.cfg.tag addr, 0⟩ else if m.valid then { m with age := m.age + 1 } else m)

/-- A miss in a set with no empty line replaces the line with the highest age, the lowest such index where ages are
equal; every other line grows older by 1 (R118, R119, R120). -/
def Obligations.LookupMissEvictsOldestLine : Prop :=
  ∀ (s : State) (c : Instance) (addr : Addr) (w : Nat) (v : Line), s.Running c →
    setsCanonical c.cfg.associativity c.sets = true →
    (∀ l ∈ c.set (c.cfg.index addr), l.valid = true ∧ l.tag ≠ c.cfg.tag addr) →
    (c.set (c.cfg.index addr))[w]? = some v →
    (∀ l ∈ c.set (c.cfg.index addr), l.age ≤ v.age) →
    (∀ k m, k < w → (c.set (c.cfg.index addr))[k]? = some m → m.age < v.age) →
      ∃ c' : Instance, exec (.lookup addr) s = .next { s with inst := some c', response := some .miss }
        ∧ c'.ctr = { c.ctr with cacheAccess := c.ctr.cacheAccess + 1, cacheMiss := c.ctr.cacheMiss + 1 }
        ∧ (c'.set (c.cfg.index addr)).length = (c.set (c.cfg.index addr)).length
        ∧ ∀ k m, (c.set (c.cfg.index addr))[k]? = some m →
            (c'.set (c.cfg.index addr))[k]? = some
              (if k = w then ⟨true, c.cfg.tag addr, 0⟩ else { m with age := m.age + 1 })

/-- A second LOOKUP of the same address, with no other LOOKUP to the same set between, hits (R119). -/
def Obligations.SecondLookupHits : Prop :=
  ∀ (s : State) (c : Instance) (addr : Addr) (others : List Addr), s.Running c → c.Inv s.params →
    (∀ a ∈ others, c.cfg.index a ≠ c.cfg.index addr) →
      ∃ t, execAll (.lookup addr :: (others.map .lookup ++ [.lookup addr])) s = .next t ∧ t.response = some .hit

/-- The first LOOKUP of a block after CONFIGURE misses, whatever other blocks were looked up before it (R129, compulsory
miss). -/
def Obligations.FirstLookupOfBlockMisses : Prop :=
  ∀ (s : State) (g : Cfg) (addr : Addr) (others : List Addr), Cfg.legal s.params g = true →
    (∀ a ∈ others, ¬(g.index a = g.index addr ∧ g.tag a = g.tag addr)) →
      ∃ t, execAll (.configure g.indexBits g.blockSizeWords g.associativity g.branchPrediction
          :: (others.map .lookup ++ [.lookup addr])) s = .next t ∧ t.response = some .miss

/-- No LOOKUP makes a valid line invalid: a set's occupancy grows by 1 on a miss while the set is not full, and is
otherwise unchanged (R126). -/
def Obligations.OccupancyNeverShrinks : Prop :=
  ∀ (s : State) (c : Instance) (addr : Addr), s.Running c → c.Inv s.params →
    ∃ (c' : Instance) (hit : Bool), exec (.lookup addr) s
        = .next { s with inst := some c', response := some (if hit then .hit else .miss) }
      ∧ ∀ j, (validLines (c'.set j)).length
          = (validLines (c.set j)).length
            + (if j = c.cfg.index addr ∧ hit = false ∧ (validLines (c.set j)).length < c.cfg.associativity
                then 1 else 0)
        ∧ ∀ (k : Nat) (l : Line), (c.set j)[k]? = some l → l.valid = true →
            ∃ l' : Line, (c'.set j)[k]? = some l' ∧ l'.valid = true

/-- The replacement is exact LRU: with the ages read as a recency order, LOOKUP is an access to an exact LRU list of the
set's tags, and hits exactly when the list holds the tag (R127, R128). -/
def Obligations.LookupRefinesLru : Prop :=
  ∀ (s : State) (c : Instance) (addr : Addr) (ts : List Nat), s.Running c → c.Inv s.params →
    RecencyOrder (c.set (c.cfg.index addr)) ts →
      ∃ c' : Instance, exec (.lookup addr) s = .next { s with
          inst := some c'
          response := some (if c.cfg.tag addr ∈ ts then .hit else .miss) }
        ∧ RecencyOrder (c'.set (c.cfg.index addr)) (lruAccess c.cfg.associativity (c.cfg.tag addr) ts)

/-! The hazard and stall detector. -/

/-- DETECT evaluates the slot standing in DECODE exactly when it is a BRANCH: `branch_count` + 1; where the outcome
matches the prediction `correct_branch_count` + 1 and no stall, else one stall unit; no slot changes (R140, R141,
R142). -/
def Obligations.DetectComparesBranchWithPrediction : Prop :=
  ∀ c : Instance,
    (∀ addr, c.bank.decode = .branch addr →
      c.detect.2.ctr.branchCount = c.ctr.branchCount + 1
      ∧ ((c.bank.fetch.addr ≠ addr + 4#32 ↔ c.cfg.branchPrediction = .alwaysTaken) →
          c.detect.2.ctr.correctBranchCount = c.ctr.correctBranchCount + 1
          ∧ c.detect.1 = stallCount c.cfg.branchPrediction { c.bank with decode := .nop 0#32 })
      ∧ (¬(c.bank.fetch.addr ≠ addr + 4#32 ↔ c.cfg.branchPrediction = .alwaysTaken) →
          c.detect.2.ctr.correctBranchCount = c.ctr.correctBranchCount
          ∧ c.detect.1 = stallCount c.cfg.branchPrediction { c.bank with decode := .nop 0#32 } + 1))
    ∧ ((∀ addr, c.bank.decode ≠ .branch addr) →
      c.detect.2.ctr = c.ctr ∧ c.detect.1 = stallCount c.cfg.branchPrediction { c.bank with decode := .nop 0#32 })
    ∧ c.detect.2.bank = c.bank

/-- A LOAD in MEM adds one stall unit exactly when the RTYPE in ALU has the LOAD's present destination as a source, once
when both sources have it; an absent operand matches nothing and no index is exempt (R144). -/
def Obligations.DetectAddsUnitForLoadUse : Prop :=
  ∀ (p : Prediction) (b : Bank) (la : Addr) (dest base : RegOp), b.mem = .load la dest base →
    ((∃ ra rd s1 s2 r, b.alu = .rtype ra rd s1 s2 ∧ dest = some r ∧ (s1 = some r ∨ s2 = some r)) →
        stallCount p b = stallCount p { b with mem := .nop 0#32 } + 1)
    ∧ ((∀ ra rd s1 s2 r, b.alu = .rtype ra rd s1 s2 → dest = some r → s1 ≠ some r ∧ s2 ≠ some r) →
        stallCount p b = stallCount p { b with mem := .nop 0#32 })

/-- A STORE in MEM adds one stall unit exactly when the RTYPE in ALU has the STORE's present base as its destination
(R146). -/
def Obligations.DetectAddsUnitForStoreDependency : Prop :=
  ∀ (p : Prediction) (b : Bank) (sa : Addr) (src base : RegOp), b.mem = .store sa src base →
    ((∃ ra rd s1 s2 r, b.alu = .rtype ra rd s1 s2 ∧ base = some r ∧ rd = some r) →
        stallCount p b = stallCount p { b with mem := .nop 0#32 } + 1)
    ∧ ((∀ ra rd s1 s2 r, b.alu = .rtype ra rd s1 s2 → base = some r → rd ≠ some r) →
        stallCount p b = stallCount p { b with mem := .nop 0#32 })

/-- The stall count is at most 2, and it is 2 exactly when a mispredicted BRANCH stands in DECODE while a load-use or
store-dependency pair stands in MEM and ALU (R148). -/
def Obligations.StallCountIsAtMostTwo : Prop :=
  ∀ (p : Prediction) (b : Bank), stallCount p b ≤ 2
    ∧ (stallCount p b = 2 ↔
        (∃ addr, b.decode = .branch addr ∧ ¬(b.fetch.addr ≠ addr + 4#32 ↔ p = .alwaysTaken))
        ∧ ∃ ra rd s1 s2 r, b.alu = .rtype ra rd s1 s2
            ∧ ((∃ la base, b.mem = .load la (some r) base ∧ (s1 = some r ∨ s2 = some r))
              ∨ ∃ sa src, b.mem = .store sa src (some r) ∧ rd = some r))

/-- The detector changes no pipeline slot and no cache state; its only writes are the two branch counters (R149). -/
def Obligations.DetectWritesOnlyBranchCounters : Prop :=
  ∀ c : Instance, ∃ n m : Nat,
    c.detect.2 = { c with ctr := { c.ctr with branchCount := n, correctBranchCount := m } }

/-! ADVANCE. -/

/-- ADVANCE under the canonical policy, whole: with stall count n, 1 + n cycles; every slot moves 1 + n stages on,
EMPTY slots following; the slots that stood in the last 1 + n stages leave, and those with a nonzero address are
retired; DETECT's counters are written once (R160 to R165). -/
def Obligations.AdvanceWithQuietReplays : Prop :=
  ∀ (s : State) (c : Instance), s.Running c → s.params.replayRedetect = false →
    ∃ b : Bank, exec .advance s = .next { s with
        inst := some { c with
          bank := b
          ctr := { c.ctr with
            cycleCount := c.ctr.cycleCount + 1 + c.detect.1
            retiredCount := c.ctr.retiredCount
              + (c.bank.slots.reverse.take (1 + c.detect.1)).countP (fun x => decide (x.addr ≠ 0#32))
            branchCount := c.detect.2.ctr.branchCount
            correctBranchCount := c.detect.2.ctr.correctBranchCount } }
        response := some .done }
      ∧ b.slots = (List.replicate (1 + c.detect.1) (Slot.nop 0#32) ++ c.bank.slots).take 5

/-- ADVANCE under both policies is one body and then, once per unit of its stall count, a body without detection
(canonical) or a whole ADVANCE on the shifted bank (REPLAY_REDETECT), depth first: the bound on the nesting in the
model's definition never cuts a replay off (R160, R163, R166). -/
def Obligations.AdvanceReplayPolicies : Prop :=
  ∀ (p : Params) (c : Instance),
    c.advance p = (if p.replayRedetect then Instance.advance p else fun d => d.retire.tickAndShift)^[c.retire.detect.1]
      c.retire.detect.2.tickAndShift

/-- With REPLAY_REDETECT every BRANCH that leaves DECODE is evaluated exactly once; under the canonical policy at most
once (R150). -/
def Obligations.BranchesAreEvaluatedAtMostOnce : Prop :=
  ∀ (s : State) (c : Instance), s.Running c →
    ∃ c' : Instance, exec .advance s = .next { s with inst := some c', response := some .done }
      ∧ c'.ctr.branchCount + c'.bank.branchesAhead ≤ c.ctr.branchCount + c.bank.branchesAhead
      ∧ (s.params.replayRedetect = true →
          c'.ctr.branchCount + c'.bank.branchesAhead = c.ctr.branchCount + c.bank.branchesAhead)

/-- ADVANCE on an all-EMPTY bank adds one cycle and changes nothing else (R179 case 1). -/
def Obligations.AdvanceOnEmptyBankOnlyCountsCycle : Prop :=
  ∀ (s : State) (c : Instance), s.Running c → c.bank.slots = List.replicate 5 (Slot.nop 0#32) →
    exec .advance s = .next { s with
      inst := some { c with ctr := { c.ctr with cycleCount := c.ctr.cycleCount + 1 } }
      response := some .done }

/-- No command but the PROCESS commands writes an instruction into the bank: after LOOKUP, FETCH_ACCESS, ADVANCE and
FINALIZE the bank holds EMPTY slots followed by the old slots in their order, and a CONFIGURE leaves EMPTY slots only
(R198). -/
def Obligations.OnlyProcessInsertsInstructions : Prop :=
  (∀ (s : State) (c : Instance) (i : Instr), s.Running c →
    ((∃ addr, i = .lookup addr ∨ i = .fetchAccess addr) ∨ i = .advance ∨ i = .finalize) →
      ∃ (c' : Instance) (r : Response) (k : Nat),
        exec i s = .next { s with inst := some c', response := some r }
        ∧ c'.bank.slots = (List.replicate k (Slot.nop 0#32) ++ c.bank.slots).take 5)
  ∧ ∀ (s : State) (ib bsw assoc : Nat) (pred : Prediction),
      ∃ t, exec (.configure ib bsw assoc pred) s = .next t
        ∧ ∀ c', t.inst = some c' → c'.bank.slots = List.replicate 5 (Slot.nop 0#32)

/-! FINALIZE. -/

/-- FINALIZE under both policies leaves all five slots EMPTY, retires every slot in the bank with a nonzero address, and
takes exactly 5 - p cycles, p the lowest stage with a non-EMPTY slot (none for an all-EMPTY bank); it touches no cache
state (R170, R171). -/
def Obligations.FinalizeDrainsTheBank : Prop :=
  ∀ (s : State) (c : Instance), s.Running c →
    ∃ (b : Bank) (n m : Nat), exec .finalize s = .next { s with
        inst := some { c with
          bank := b
          ctr := { c.ctr with
            cycleCount := c.ctr.cycleCount + (5 - c.bank.lowest)
            retiredCount := c.ctr.retiredCount + c.bank.inFlight
            branchCount := n
            correctBranchCount := m } }
        response := some .done }
      ∧ b.slots = List.replicate 5 (Slot.nop 0#32)

/-- FINALIZE is the loop of R170: on an all-EMPTY bank it changes nothing; on any other it is ADVANCE and then FINALIZE.
The bound on the loop in the model's definition never cuts it off. -/
def Obligations.FinalizeIsTheAdvanceLoop : Prop :=
  ∀ (s : State) (c : Instance), s.Running c →
    (c.bank.slots = List.replicate 5 (Slot.nop 0#32) → exec .finalize s = .next { s with response := some .done })
    ∧ (c.bank.slots ≠ List.replicate 5 (Slot.nop 0#32) →
        ∃ t, exec .advance s = .next t ∧ exec .finalize s = exec .finalize t)

/-! The PROCESS commands. -/

/-- PROCESS_NOP, PROCESS_BRANCH, PROCESS_JUMP and PROCESS_SYSCALL: ADVANCE, which leaves FETCH EMPTY, and then the write
of FETCH with the kind and the address, at every address; nothing else (R190, R191, R195, R196, R197). -/
def Obligations.ProcessWithoutOperandsInsertsSlot : Prop :=
  ∀ (s : State) (c : Instance), s.Running c →
    ∃ c' : Instance, exec .advance s = .next { s with inst := some c', response := some .done }
      ∧ c'.bank.fetch = .nop 0#32
      ∧ ∀ addr : Addr,
        exec (.processNop addr) s = .next { s with
            inst := some { c' with bank := { c'.bank with fetch := .nop addr } }, response := some .done }
        ∧ exec (.processBranch addr) s = .next { s with
            inst := some { c' with bank := { c'.bank with fetch := .branch addr } }, response := some .done }
        ∧ exec (.processJump addr) s = .next { s with
            inst := some { c' with bank := { c'.bank with fetch := .jump addr } }, response := some .done }
        ∧ exec (.processSyscall addr) s = .next { s with
            inst := some { c' with bank := { c'.bank with fetch := .syscall addr } }, response := some .done }

/-- PROCESS_RTYPE, PROCESS_LOAD and PROCESS_STORE: ADVANCE, and then the write of FETCH with the kind, the address and
the operands, the first of them present and the others present or absent; nothing else (R190, R192, R193, R194). -/
def Obligations.ProcessWithOperandsInsertsSlot : Prop :=
  ∀ (s : State) (c : Instance), s.Running c →
    ∃ c' : Instance, exec .advance s = .next { s with inst := some c', response := some .done }
      ∧ ∀ (addr : Addr) (r : Nat) (x y : RegOp),
        exec (.processRtype addr (some r) x y) s = .next { s with
            inst := some { c' with bank := { c'.bank with fetch := .rtype addr (some r) x y } }
            response := some .done }
        ∧ exec (.processLoad addr (some r) x) s = .next { s with
            inst := some { c' with bank := { c'.bank with fetch := .load addr (some r) x } }
            response := some .done }
        ∧ exec (.processStore addr (some r) x) s = .next { s with
            inst := some { c' with bank := { c'.bank with fetch := .store addr (some r) x } }
            response := some .done }

/-- A PROCESS command given without its mandatory operand raises ParseError and does nothing else (R34, R222). -/
def Obligations.ProcessWithoutMandatoryOperandIsParseError : Prop :=
  ∀ (s : State) (c : Instance) (addr : Addr) (x y : RegOp), s.Running c →
    exec (.processRtype addr none x y) s
        = .next { s with fatal := some .parseError, response := some (.fatal .parseError) }
    ∧ exec (.processLoad addr none x) s
        = .next { s with fatal := some .parseError, response := some (.fatal .parseError) }
    ∧ exec (.processStore addr none x) s
        = .next { s with fatal := some .parseError, response := some (.fatal .parseError) }

/-- PROCESS_NOP with address 0 is indistinguishable from a bare ADVANCE, in every state (R191). -/
def Obligations.ProcessNopAtZeroIsAdvance : Prop :=
  ∀ s : State, exec (.processNop 0#32) s = exec .advance s

/-! FETCH_ACCESS. -/

/-- FETCH_ACCESS of a resident block is LOOKUP: nothing but the cache state and its counters changes (R210, R216 case
1). -/
def Obligations.FetchAccessHitIsLookup : Prop :=
  ∀ (s : State) (c : Instance) (addr : Addr), s.Running c →
    (∃ l ∈ c.set (c.cfg.index addr), l.valid = true ∧ l.tag = c.cfg.tag addr) →
      ∃ (sets : List (Nat × CacheSet)) (t : State),
        t = { s with
          inst := some { c with
            sets := sets
            ctr := { c.ctr with cacheAccess := c.ctr.cacheAccess + 1, cacheHit := c.ctr.cacheHit + 1 } }
          response := some .hit }
        ∧ exec (.fetchAccess addr) s = .next t ∧ exec (.lookup addr) s = .next t

/-- FETCH_ACCESS of a block that is not resident is LOOKUP and then MISS_PENALTY - 1 whole ADVANCE commands, answering
miss (R210, R211). -/
def Obligations.FetchAccessMissIsLookupAndBurn : Prop :=
  ∀ (s : State) (c : Instance) (addr : Addr), s.Running c →
    (∀ l ∈ c.set (c.cfg.index addr), l.valid = true → l.tag ≠ c.cfg.tag addr) →
      ∃ t, execAll (.lookup addr :: List.replicate (s.params.missPenalty - 1) .advance) s = .next t
        ∧ exec (.fetchAccess addr) s = .next { t with response := some .miss }

/-- A FETCH_ACCESS that misses on an all-EMPTY bank adds 1 to `cache_access` and `cache_miss` and MISS_PENALTY - 1 to
`cycle_count`, writes the set LOOKUP writes, and changes nothing else: the bank stays EMPTY (R210's example, for every
penalty). -/
def Obligations.MissOnEmptyBankCostsThePenalty : Prop :=
  ∀ (s : State) (c : Instance) (addr : Addr), s.Running c → c.bank.slots = List.replicate 5 (Slot.nop 0#32) →
    (∀ l ∈ c.set (c.cfg.index addr), l.valid = true → l.tag ≠ c.cfg.tag addr) →
      ∃ sets, exec (.lookup addr) s = .next { s with
          inst := some { c with
            sets := sets
            ctr := { c.ctr with cacheAccess := c.ctr.cacheAccess + 1, cacheMiss := c.ctr.cacheMiss + 1 } }
          response := some .miss }
        ∧ exec (.fetchAccess addr) s = .next { s with
          inst := some { c with
            sets := sets
            ctr := { c.ctr with
              cacheAccess := c.ctr.cacheAccess + 1
              cacheMiss := c.ctr.cacheMiss + 1
              cycleCount := c.ctr.cycleCount + (s.params.missPenalty - 1) } }
          response := some .miss }

/-- LOOKUP and FETCH_ACCESS reach the cache, each with exactly one lookup of its address and the same one; no PROCESS
command, no ADVANCE and no FINALIZE touches the cache or its counters (R61). -/
def Obligations.OnlyLookupAndFetchReachTheCache : Prop :=
  ∀ (s : State) (c : Instance), s.Running c →
    (∀ addr : Addr, ∃ c₁ c₂ r₁ r₂,
      exec (.lookup addr) s = .next { s with inst := some c₁, response := some r₁ }
      ∧ exec (.fetchAccess addr) s = .next { s with inst := some c₂, response := some r₂ }
      ∧ r₁ = r₂ ∧ c₁.sets = c₂.sets
      ∧ c₁.ctr.cacheAccess = c.ctr.cacheAccess + 1 ∧ c₂.ctr.cacheAccess = c.ctr.cacheAccess + 1
      ∧ c₁.ctr.cacheHit = c₂.ctr.cacheHit ∧ c₁.ctr.cacheMiss = c₂.ctr.cacheMiss)
    ∧ ∀ i : Instr, notConfigure i = true → i.mandatoryPresent = true →
        (∀ addr, i ≠ .lookup addr ∧ i ≠ .fetchAccess addr) →
        ∃ c' r, exec i s = .next { s with inst := some c', response := some r }
          ∧ c'.cfg = c.cfg ∧ c'.sets = c.sets ∧ c'.ctr.cacheAccess = c.ctr.cacheAccess
          ∧ c'.ctr.cacheHit = c.ctr.cacheHit ∧ c'.ctr.cacheMiss = c.ctr.cacheMiss

/-! Whole traces. -/

/-- One trace step: FETCH_ACCESS and its PROCESS command are one LOOKUP, then MISS_PENALTY advances on a miss and one on
a hit, then the write of FETCH (R210, R212, R214). -/
def Obligations.TraceStepCostsThePenalty : Prop :=
  ∀ (s : State) (c : Instance) (x : Slot), s.Running c → x.mandatoryPresent = true → 1 ≤ s.params.missPenalty →
    ∃ t d, execAll (.lookup x.addr :: List.replicate (if c.hits x.addr then 1 else s.params.missPenalty) .advance) s
        = .next t
      ∧ t.Running d
      ∧ execAll (stepCommands x) s = .next { t with inst := some { d with bank := { d.bank with fetch := x } } }

/-- A whole run of a trace whose slots the detector does not read (NOP, JUMP, SYSCALL), the last of them not EMPTY: N
accesses, of which M missed; N + M * (MISS_PENALTY - 1) + 5 cycles; one retirement per nonzero address; no branch
(R217 with S = 0 and D = 5). -/
def Obligations.RunOfStallFreeTrace : Prop :=
  ∀ (s : State) (g : Cfg) (trace : List Slot) (last : Slot), Cfg.legal s.params g = true →
    (∀ x ∈ trace ++ [last], x.kind = .nop ∨ x.kind = .jump ∨ x.kind = .syscall) → last ≠ .nop 0#32 →
      ∃ t c, execAll (runCommands g (trace ++ [last])) s = .next t
        ∧ t.Running c ∧ c.bank.slots = List.replicate 5 (Slot.nop 0#32)
        ∧ c.ctr.cacheAccess = trace.length + 1 ∧ c.ctr.cacheHit + c.ctr.cacheMiss = trace.length + 1
        ∧ c.ctr.cycleCount = (trace.length + 1) + c.ctr.cacheMiss * (s.params.missPenalty - 1) + 5
        ∧ c.ctr.retiredCount = (trace ++ [last]).countP (fun x => decide (x.addr ≠ 0#32))
        ∧ c.ctr.branchCount = 0 ∧ c.ctr.correctBranchCount = 0

/-! The statistics. -/

/-- Retired instructions and those still in the bank are conserved: every command but CONFIGURE keeps their sum, except
that a PROCESS command with a nonzero address adds 1 (R161, R172). -/
def Obligations.InstructionsAreRetiredOnce : Prop :=
  ∀ (s : State) (c : Instance) (i : Instr), s.Running c → notConfigure i = true → i.mandatoryPresent = true →
    ∃ c' r, exec i s = .next { s with inst := some c', response := some r }
      ∧ c'.ctr.retiredCount + c'.bank.inFlight
          = c.ctr.retiredCount + c.bank.inFlight + (if insertsCounting i then 1 else 0)

/-- Drain completeness: after CONFIGURE, any commands but CONFIGURE and then FINALIZE, every slot is EMPTY and
`retired_count` is the number of PROCESS commands whose address was not 0 (R172). -/
def Obligations.DrainIsComplete : Prop :=
  ∀ (s : State) (g : Cfg) (is : List Instr), Cfg.legal s.params g = true →
    (∀ i ∈ is, notConfigure i = true ∧ i.mandatoryPresent = true) →
      ∃ t c, execAll (.configure g.indexBits g.blockSizeWords g.associativity g.branchPrediction
          :: (is ++ [.finalize])) s = .next t
        ∧ t.Running c ∧ c.bank.slots = List.replicate 5 (Slot.nop 0#32)
        ∧ c.ctr.retiredCount = is.countP insertsCounting

/-- No command but CONFIGURE lowers a counter (R45: every counter is monotonically non-decreasing between two
CONFIGUREs). -/
def Obligations.CountersOnlyGrow : Prop :=
  ∀ (s : State) (c : Instance) (i : Instr), s.inst = some c → notConfigure i = true →
    ∃ t c', exec i s = .next t ∧ t.inst = some c'
      ∧ c.ctr.cacheAccess ≤ c'.ctr.cacheAccess ∧ c.ctr.cacheHit ≤ c'.ctr.cacheHit
      ∧ c.ctr.cacheMiss ≤ c'.ctr.cacheMiss ∧ c.ctr.cycleCount ≤ c'.ctr.cycleCount
      ∧ c.ctr.retiredCount ≤ c'.ctr.retiredCount ∧ c.ctr.branchCount ≤ c'.ctr.branchCount
      ∧ c.ctr.correctBranchCount ≤ c'.ctr.correctBranchCount

/-- The miss rate is 0 when there was no access and CPI is 0 when nothing retired; otherwise they are the exact
quotients (R236, R237). -/
def Obligations.RatesAreExactOrZero : Prop :=
  ∀ k : Counters,
    (k.cacheAccess = 0 → k.missRate = 0) ∧ (k.cacheAccess ≠ 0 → k.missRate * (k.cacheAccess : ℚ) = (k.cacheMiss : ℚ))
    ∧ (k.retiredCount = 0 → k.cpi = 0) ∧ (k.retiredCount ≠ 0 → k.cpi * (k.retiredCount : ℚ) = (k.cycleCount : ℚ))

/-- The empty run: CONFIGURE, FINALIZE, read-out reports seven counters of 0 and both rates 0 (R238). -/
def Obligations.EmptyRunReportsZero : Prop :=
  ∀ (s : State) (g : Cfg), Cfg.legal s.params g = true →
    ∃ t r, execAll [.configure g.indexBits g.blockSizeWords g.associativity g.branchPrediction, .finalize] s = .next t
      ∧ t.report = some r ∧ r.ctr = ⟨0, 0, 0, 0, 0, 0, 0⟩ ∧ r.missRate = 0 ∧ r.cpi = 0 ∧ t.fatalCode = 0

/-! The invariant. -/

/-- Every step keeps the machine's invariant: in every set at most one line per way is valid, the valid lines have
distinct tags and distinct ages, one of them has age 0 if there is any, and they stand first; the equality and the two
inequalities among the counters; the mandatory operands of every slot; a legal configuration; and the canonical form of
the array of sets, which is the model's own (log entry 8). After R125, R45, R34, R7 and R28. -/
def Obligations.StepKeepsInvariant : Prop :=
  ∀ s t : State, s.Inv → step s = .next t → t.Inv

/-- The invariant holds at power-on. -/
def Obligations.ResetHasInvariant : Prop := State.reset.Inv
end

