-- ==== Sys2Proof/Laws/State.lean ====
section
/-! SUPPORT. One lemma per field per update of the state, of an instance, of the bank and of the counters. -/

namespace Sys2Proof.Machine

/-! The state. -/

@[simp] theorem State.withInst_params (s : State) (c : Option Instance) : (s.withInst c).params = s.params := rfl
@[simp] theorem State.withInst_inst (s : State) (c : Option Instance) : (s.withInst c).inst = c := rfl
@[simp] theorem State.withInst_fatal (s : State) (c : Option Instance) : (s.withInst c).fatal = s.fatal := rfl
@[simp] theorem State.withInst_pending (s : State) (c : Option Instance) : (s.withInst c).pending = s.pending := rfl
@[simp] theorem State.withInst_response (s : State) (c : Option Instance) : (s.withInst c).response = s.response := rfl

@[simp] theorem State.withFatal_params (s : State) (f : Option FatalCause) : (s.withFatal f).params = s.params := rfl
@[simp] theorem State.withFatal_inst (s : State) (f : Option FatalCause) : (s.withFatal f).inst = s.inst := rfl
@[simp] theorem State.withFatal_fatal (s : State) (f : Option FatalCause) : (s.withFatal f).fatal = f := rfl
@[simp] theorem State.withFatal_pending (s : State) (f : Option FatalCause) : (s.withFatal f).pending = s.pending := rfl
@[simp] theorem State.withFatal_response (s : State) (f : Option FatalCause) : (s.withFatal f).response = s.response := rfl

@[simp] theorem State.withPending_params (s : State) (ws : List CommandWord) : (s.withPending ws).params = s.params := rfl
@[simp] theorem State.withPending_inst (s : State) (ws : List CommandWord) : (s.withPending ws).inst = s.inst := rfl
@[simp] theorem State.withPending_fatal (s : State) (ws : List CommandWord) : (s.withPending ws).fatal = s.fatal := rfl
@[simp] theorem State.withPending_pending (s : State) (ws : List CommandWord) : (s.withPending ws).pending = ws := rfl
@[simp] theorem State.withPending_response (s : State) (ws : List CommandWord) : (s.withPending ws).response = s.response := rfl

@[simp] theorem State.answer_params (s : State) (r : Response) : (s.answer r).params = s.params := rfl
@[simp] theorem State.answer_inst (s : State) (r : Response) : (s.answer r).inst = s.inst := rfl
@[simp] theorem State.answer_fatal (s : State) (r : Response) : (s.answer r).fatal = s.fatal := rfl
@[simp] theorem State.answer_pending (s : State) (r : Response) : (s.answer r).pending = s.pending := rfl
@[simp] theorem State.answer_response (s : State) (r : Response) : (s.answer r).response = some r := rfl

@[simp] theorem State.refuse_params (s : State) : (s.refuse).params = s.params := rfl
@[simp] theorem State.refuse_inst (s : State) : (s.refuse).inst = s.inst := rfl
@[simp] theorem State.refuse_fatal (s : State) : (s.refuse).fatal = s.fatal := rfl
@[simp] theorem State.refuse_pending (s : State) : (s.refuse).pending = s.pending := rfl
@[simp] theorem State.refuse_response (s : State) : (s.refuse).response = some .refused := rfl

@[simp] theorem State.raiseFatal_params (s : State) (e : FatalCause) : (s.raiseFatal e).params = s.params := rfl
@[simp] theorem State.raiseFatal_inst (s : State) (e : FatalCause) : (s.raiseFatal e).inst = s.inst := rfl
@[simp] theorem State.raiseFatal_fatal (s : State) (e : FatalCause) : (s.raiseFatal e).fatal = some e := rfl
@[simp] theorem State.raiseFatal_pending (s : State) (e : FatalCause) : (s.raiseFatal e).pending = s.pending := rfl
@[simp] theorem State.raiseFatal_response (s : State) (e : FatalCause) : (s.raiseFatal e).response = some (.fatal e) := rfl

/-! An instance. -/

@[simp] theorem Instance.withSets_cfg (c : Instance) (x : List (Nat × CacheSet)) : (c.withSets x).cfg = c.cfg := rfl
@[simp] theorem Instance.withSets_sets (c : Instance) (x : List (Nat × CacheSet)) : (c.withSets x).sets = x := rfl
@[simp] theorem Instance.withSets_bank (c : Instance) (x : List (Nat × CacheSet)) : (c.withSets x).bank = c.bank := rfl
@[simp] theorem Instance.withSets_ctr (c : Instance) (x : List (Nat × CacheSet)) : (c.withSets x).ctr = c.ctr := rfl

@[simp] theorem Instance.withBank_cfg (c : Instance) (x : Bank) : (c.withBank x).cfg = c.cfg := rfl
@[simp] theorem Instance.withBank_sets (c : Instance) (x : Bank) : (c.withBank x).sets = c.sets := rfl
@[simp] theorem Instance.withBank_bank (c : Instance) (x : Bank) : (c.withBank x).bank = x := rfl
@[simp] theorem Instance.withBank_ctr (c : Instance) (x : Bank) : (c.withBank x).ctr = c.ctr := rfl

@[simp] theorem Instance.withCtr_cfg (c : Instance) (x : Counters) : (c.withCtr x).cfg = c.cfg := rfl
@[simp] theorem Instance.withCtr_sets (c : Instance) (x : Counters) : (c.withCtr x).sets = c.sets := rfl
@[simp] theorem Instance.withCtr_bank (c : Instance) (x : Counters) : (c.withCtr x).bank = c.bank := rfl
@[simp] theorem Instance.withCtr_ctr (c : Instance) (x : Counters) : (c.withCtr x).ctr = x := rfl

@[simp] theorem Instance.putSet_cfg (c : Instance) (i : Nat) (v : CacheSet) : (c.putSet i v).cfg = c.cfg := rfl
@[simp] theorem Instance.putSet_sets (c : Instance) (i : Nat) (v : CacheSet) : (c.putSet i v).sets = writeSet c.cfg.associativity c.sets i v := rfl
@[simp] theorem Instance.putSet_bank (c : Instance) (i : Nat) (v : CacheSet) : (c.putSet i v).bank = c.bank := rfl
@[simp] theorem Instance.putSet_ctr (c : Instance) (i : Nat) (v : CacheSet) : (c.putSet i v).ctr = c.ctr := rfl

@[simp] theorem Instance.insert_cfg (c : Instance) (x : Slot) : (c.insert x).cfg = c.cfg := rfl
@[simp] theorem Instance.insert_sets (c : Instance) (x : Slot) : (c.insert x).sets = c.sets := rfl
@[simp] theorem Instance.insert_bank (c : Instance) (x : Slot) : (c.insert x).bank = c.bank.insert x := rfl
@[simp] theorem Instance.insert_ctr (c : Instance) (x : Slot) : (c.insert x).ctr = c.ctr := rfl

@[simp] theorem Instance.retire_cfg (c : Instance) : (c.retire).cfg = c.cfg := rfl
@[simp] theorem Instance.retire_sets (c : Instance) : (c.retire).sets = c.sets := rfl
@[simp] theorem Instance.retire_bank (c : Instance) : (c.retire).bank = c.bank := rfl
@[simp] theorem Instance.retire_ctr (c : Instance) : (c.retire).ctr = c.ctr.countRetirement c.bank.writeback := rfl

@[simp] theorem Instance.tickAndShift_cfg (c : Instance) : (c.tickAndShift).cfg = c.cfg := rfl
@[simp] theorem Instance.tickAndShift_sets (c : Instance) : (c.tickAndShift).sets = c.sets := rfl
@[simp] theorem Instance.tickAndShift_bank (c : Instance) : (c.tickAndShift).bank = c.bank.shift := rfl
@[simp] theorem Instance.tickAndShift_ctr (c : Instance) : (c.tickAndShift).ctr = c.ctr.countCycle := rfl

@[simp] theorem Instance.lookup_cfg (c : Instance) (addr : Addr) : (c.lookup addr).cfg = c.cfg := rfl
@[simp] theorem Instance.lookup_sets (c : Instance) (addr : Addr) : (c.lookup addr).sets = writeSet c.cfg.associativity c.sets (c.cfg.index addr)
      (lookupSet (c.cfg.tag addr) (c.set (c.cfg.index addr))).1 := rfl
@[simp] theorem Instance.lookup_bank (c : Instance) (addr : Addr) : (c.lookup addr).bank = c.bank := rfl
@[simp] theorem Instance.lookup_ctr (c : Instance) (addr : Addr) : (c.lookup addr).ctr = c.ctr.countLookup (c.hits addr) := rfl

@[simp] theorem Instance.detect_stall (c : Instance) : c.detect.1 = stallCount c.cfg.branchPrediction c.bank := rfl
@[simp] theorem Instance.detect_cfg (c : Instance) : c.detect.2.cfg = c.cfg := rfl
@[simp] theorem Instance.detect_sets (c : Instance) : c.detect.2.sets = c.sets := rfl
@[simp] theorem Instance.detect_bank (c : Instance) : c.detect.2.bank = c.bank := rfl
@[simp] theorem Instance.detect_ctr (c : Instance) :
    c.detect.2.ctr = c.ctr.countBranch c.cfg.branchPrediction c.bank := rfl

@[simp] theorem freshInstance_cfg (g : Cfg) : (freshInstance g).cfg = g := rfl
@[simp] theorem freshInstance_sets (g : Cfg) : (freshInstance g).sets = [] := rfl
@[simp] theorem freshInstance_bank (g : Cfg) : (freshInstance g).bank = Bank.empty := rfl
@[simp] theorem freshInstance_ctr (g : Cfg) : (freshInstance g).ctr = Counters.zero := rfl

/-! The bank. -/

@[simp] theorem Bank.shift_fetch (b : Bank) : (b.shift).fetch = Slot.empty := rfl
@[simp] theorem Bank.shift_decode (b : Bank) : (b.shift).decode = b.fetch := rfl
@[simp] theorem Bank.shift_alu (b : Bank) : (b.shift).alu = b.decode := rfl
@[simp] theorem Bank.shift_mem (b : Bank) : (b.shift).mem = b.alu := rfl
@[simp] theorem Bank.shift_writeback (b : Bank) : (b.shift).writeback = b.mem := rfl

@[simp] theorem Bank.insert_fetch (b : Bank) (x : Slot) : (b.insert x).fetch = x := rfl
@[simp] theorem Bank.insert_decode (b : Bank) (x : Slot) : (b.insert x).decode = b.decode := rfl
@[simp] theorem Bank.insert_alu (b : Bank) (x : Slot) : (b.insert x).alu = b.alu := rfl
@[simp] theorem Bank.insert_mem (b : Bank) (x : Slot) : (b.insert x).mem = b.mem := rfl
@[simp] theorem Bank.insert_writeback (b : Bank) (x : Slot) : (b.insert x).writeback = b.writeback := rfl

@[simp] theorem Bank.empty_slots : Bank.empty.slots = List.replicate 5 Slot.empty := rfl

/-- A bank is its five slots. -/
theorem Bank.ext_slots {a b : Bank} (h : a.slots = b.slots) : a = b := by
  cases a; cases b; simpa [Bank.slots] using h

/-! The counters. -/

@[simp] theorem Counters.countLookup_cacheAccess (k : Counters) (hit : Bool) : (k.countLookup hit).cacheAccess = k.cacheAccess + 1 := rfl
@[simp] theorem Counters.countLookup_cacheHit (k : Counters) (hit : Bool) : (k.countLookup hit).cacheHit = k.cacheHit + hit.toNat := rfl
@[simp] theorem Counters.countLookup_cacheMiss (k : Counters) (hit : Bool) : (k.countLookup hit).cacheMiss = k.cacheMiss + (!hit).toNat := rfl
@[simp] theorem Counters.countLookup_cycleCount (k : Counters) (hit : Bool) : (k.countLookup hit).cycleCount = k.cycleCount := rfl
@[simp] theorem Counters.countLookup_retiredCount (k : Counters) (hit : Bool) : (k.countLookup hit).retiredCount = k.retiredCount := rfl
@[simp] theorem Counters.countLookup_branchCount (k : Counters) (hit : Bool) : (k.countLookup hit).branchCount = k.branchCount := rfl
@[simp] theorem Counters.countLookup_correctBranchCount (k : Counters) (hit : Bool) : (k.countLookup hit).correctBranchCount = k.correctBranchCount := rfl

@[simp] theorem Counters.countRetirement_cacheAccess (k : Counters) (x : Slot) : (k.countRetirement x).cacheAccess = k.cacheAccess := rfl
@[simp] theorem Counters.countRetirement_cacheHit (k : Counters) (x : Slot) : (k.countRetirement x).cacheHit = k.cacheHit := rfl
@[simp] theorem Counters.countRetirement_cacheMiss (k : Counters) (x : Slot) : (k.countRetirement x).cacheMiss = k.cacheMiss := rfl
@[simp] theorem Counters.countRetirement_cycleCount (k : Counters) (x : Slot) : (k.countRetirement x).cycleCount = k.cycleCount := rfl
@[simp] theorem Counters.countRetirement_retiredCount (k : Counters) (x : Slot) : (k.countRetirement x).retiredCount = k.retiredCount + x.counts.toNat := rfl
@[simp] theorem Counters.countRetirement_branchCount (k : Counters) (x : Slot) : (k.countRetirement x).branchCount = k.branchCount := rfl
@[simp] theorem Counters.countRetirement_correctBranchCount (k : Counters) (x : Slot) : (k.countRetirement x).correctBranchCount = k.correctBranchCount := rfl

@[simp] theorem Counters.countCycle_cacheAccess (k : Counters) : (k.countCycle).cacheAccess = k.cacheAccess := rfl
@[simp] theorem Counters.countCycle_cacheHit (k : Counters) : (k.countCycle).cacheHit = k.cacheHit := rfl
@[simp] theorem Counters.countCycle_cacheMiss (k : Counters) : (k.countCycle).cacheMiss = k.cacheMiss := rfl
@[simp] theorem Counters.countCycle_cycleCount (k : Counters) : (k.countCycle).cycleCount = k.cycleCount + 1 := rfl
@[simp] theorem Counters.countCycle_retiredCount (k : Counters) : (k.countCycle).retiredCount = k.retiredCount := rfl
@[simp] theorem Counters.countCycle_branchCount (k : Counters) : (k.countCycle).branchCount = k.branchCount := rfl
@[simp] theorem Counters.countCycle_correctBranchCount (k : Counters) : (k.countCycle).correctBranchCount = k.correctBranchCount := rfl

@[simp] theorem Counters.countBranch_cacheAccess (k : Counters) (p : Prediction) (b : Bank) : (k.countBranch p b).cacheAccess = k.cacheAccess := rfl
@[simp] theorem Counters.countBranch_cacheHit (k : Counters) (p : Prediction) (b : Bank) : (k.countBranch p b).cacheHit = k.cacheHit := rfl
@[simp] theorem Counters.countBranch_cacheMiss (k : Counters) (p : Prediction) (b : Bank) : (k.countBranch p b).cacheMiss = k.cacheMiss := rfl
@[simp] theorem Counters.countBranch_cycleCount (k : Counters) (p : Prediction) (b : Bank) : (k.countBranch p b).cycleCount = k.cycleCount := rfl
@[simp] theorem Counters.countBranch_retiredCount (k : Counters) (p : Prediction) (b : Bank) : (k.countBranch p b).retiredCount = k.retiredCount := rfl
@[simp] theorem Counters.countBranch_branchCount (k : Counters) (p : Prediction) (b : Bank) : (k.countBranch p b).branchCount = k.branchCount + (branchInDecode b).toNat := rfl
@[simp] theorem Counters.countBranch_correctBranchCount (k : Counters) (p : Prediction) (b : Bank) : (k.countBranch p b).correctBranchCount = k.correctBranchCount + (branchInDecode b && branchPredicted p b).toNat := rfl

end Sys2Proof.Machine
end

