-- ==== Sys2Proof/Laws/Sets.lean ====
section
/-! SUPPORT. The array of sets: reading after writing, and the canonical form, which every write keeps. -/

namespace Sys2Proof.Machine

/-- The canonical form as a proposition on an entry and the entries behind it. -/
theorem setsCanonical_cons {assoc j : Nat} {u : CacheSet} {rest : List (Nat × CacheSet)} :
    setsCanonical assoc ((j, u) :: rest) = true ↔
      (∀ e ∈ rest, j < e.1) ∧ u ≠ freshSet assoc ∧ setsCanonical assoc rest = true := by
  simp only [setsCanonical, List.map_cons, List.pairwise_cons, List.all_cons, Bool.and_eq_true, decide_eq_true_eq,
    bne_iff_ne, List.mem_map, forall_exists_index, and_imp, forall_apply_eq_imp_iff₂]
  tauto

@[simp] theorem setsCanonical_nil (assoc : Nat) : setsCanonical assoc [] = true := by simp [setsCanonical]

/-- What a write leaves: an entry it wrote, or one that was there. -/
theorem mem_writeSet {assoc i : Nat} {v : CacheSet} {sets : List (Nat × CacheSet)} {e : Nat × CacheSet}
    (h : e ∈ writeSet assoc sets i v) : e = (i, v) ∨ e ∈ sets := by
  induction sets with
  | nil => simp only [writeSet, consSet] at h; split at h <;> simp_all
  | cons a rest ih =>
    obtain ⟨j, u⟩ := a
    simp only [writeSet, consSet] at h
    split_ifs at h <;> simp_all <;> tauto

/-- Every write keeps the canonical form. -/
theorem writeSet_canonical {assoc i : Nat} {v : CacheSet} {sets : List (Nat × CacheSet)}
    (h : setsCanonical assoc sets = true) : setsCanonical assoc (writeSet assoc sets i v) = true := by
  induction sets with
  | nil => simp only [writeSet, consSet]; split_ifs <;> simp_all [setsCanonical_cons]
  | cons a rest ih =>
    obtain ⟨j, u⟩ := a
    obtain ⟨hlt, hu, hrest⟩ := setsCanonical_cons.mp h
    simp only [writeSet, consSet]
    split_ifs with h1 h2 h3 h4
    · exact h
    · exact setsCanonical_cons.mpr ⟨fun e he => by
        rcases List.mem_cons.mp he with rfl | he
        · exact h1
        · exact h1.trans (hlt e he), h2, h⟩
    · exact hrest
    · exact setsCanonical_cons.mpr ⟨fun e he => by have := hlt e he; omega, h4, hrest⟩
    · refine setsCanonical_cons.mpr ⟨fun e he => ?_, hu, ih hrest⟩
      rcases mem_writeSet he with rfl | he
      · simp only; omega
      · exact hlt e he

/-- Under the canonical form an index below every entry reads as fresh. -/
theorem readSet_of_lt {assoc i : Nat} {sets : List (Nat × CacheSet)} (h : ∀ e ∈ sets, i < e.1) :
    readSet assoc sets i = freshSet assoc := by
  induction sets with
  | nil => rfl
  | cons a rest ih =>
    obtain ⟨j, u⟩ := a
    have := h (j, u) (by simp)
    simp only [readSet]
    rw [if_neg (by simp only at this; omega)]
    exact ih fun e he => h e (by simp [he])

/-- A read of the set just written gives what was written. -/
theorem readSet_writeSet_same {assoc i : Nat} {v : CacheSet} {sets : List (Nat × CacheSet)}
    (h : setsCanonical assoc sets = true) : readSet assoc (writeSet assoc sets i v) i = v := by
  induction sets with
  | nil => simp only [writeSet, consSet]; split_ifs <;> simp_all [readSet]
  | cons a rest ih =>
    obtain ⟨j, u⟩ := a
    obtain ⟨hlt, hu, hrest⟩ := setsCanonical_cons.mp h
    simp only [writeSet, consSet]
    split_ifs with h1 h2 h3 h4
    · rw [readSet_of_lt (fun e he => ?_), h2]
      rcases List.mem_cons.mp he with rfl | he
      · exact h1
      · exact h1.trans (hlt e he)
    · simp [readSet]
    · rw [readSet_of_lt (fun e he => by have := hlt e he; omega), h4]
    · simp [readSet]
    · simp only [readSet]; rw [if_neg (by omega)]; exact ih hrest

/-- A write leaves every other set alone. -/
theorem readSet_writeSet_other {assoc i k : Nat} {v : CacheSet} {sets : List (Nat × CacheSet)} (hk : k ≠ i) :
    readSet assoc (writeSet assoc sets i v) k = readSet assoc sets k := by
  induction sets with
  | nil => simp only [writeSet, consSet]; split_ifs <;> simp [readSet, hk.symm]
  | cons a rest ih =>
    obtain ⟨j, u⟩ := a
    simp only [writeSet, consSet]
    split_ifs with h1 h2 h3 h4
    · rfl
    · simp [readSet, hk.symm]
    · simp [readSet, ← h3, hk.symm]
    · simp [readSet, ← h3, hk.symm]
    · simp [readSet, ih]

/-- The set an instance holds after a write of it. -/
theorem Instance.set_putSet_same {c : Instance} (h : setsCanonical c.cfg.associativity c.sets = true) (i : Nat)
    (v : CacheSet) : (c.putSet i v).set i = v := by
  simpa [Instance.set] using readSet_writeSet_same h

/-- The other sets after it. -/
theorem Instance.set_putSet_other (c : Instance) {i k : Nat} (hk : k ≠ i) (v : CacheSet) :
    (c.putSet i v).set k = c.set k := by
  simpa [Instance.set] using readSet_writeSet_other hk

end Sys2Proof.Machine
end

