-- ==== Sys2Proof/Laws/CacheSets.lean ====
section
/-! SUPPORT. What a lookup in one set can do, said once. -/

namespace Sys2Proof.Machine

/-- The recency update keeps the number of lines. -/
@[simp] theorem refresh_length (w : Nat) (ls : CacheSet) : (refresh w ls).length = ls.length := by
  simp [refresh]

/-- The recency update, line by line. -/
theorem refresh_getElem? (w k : Nat) (ls : CacheSet) :
    (refresh w ls)[k]? = ls[k]?.map (ageLine (k == w)) := by
  simp [refresh]

/-- The insertion keeps the number of lines. -/
@[simp] theorem insertTag_length (t w : Nat) (ls : CacheSet) : (insertTag t w ls).length = ls.length := by
  simp [insertTag]

/-- The insertion, line by line. -/
theorem insertTag_getElem? (t w k : Nat) (ls : CacheSet) :
    (insertTag t w ls)[k]? =
      if w = k then ls[k]?.map (fun l => { l with valid := true, tag := t }) else ls[k]? := by
  simp only [insertTag, List.getElem?_modify]
  split <;> simp

/-- No line is older than the highest age. -/
theorem le_maxAge {ls : CacheSet} {l : Line} (h : l ∈ ls) : l.age ≤ maxAge ls := by
  induction ls with
  | nil => cases h
  | cons a rest ih =>
    simp only [maxAge, List.foldr_cons] at *
    rcases List.mem_cons.mp h with rfl | h
    · exact le_max_left _ _
    · exact (ih h).trans (le_max_right _ _)

/-- Some line of a set with lines has the highest age. -/
theorem exists_maxAge {ls : CacheSet} (h : ls ≠ []) : ∃ l ∈ ls, l.age = maxAge ls := by
  induction ls with
  | nil => exact absurd rfl h
  | cons a rest ih =>
    by_cases hr : rest = []
    · subst hr; exact ⟨a, by simp, by simp [maxAge]⟩
    · obtain ⟨l, hl, hl'⟩ := ih hr
      simp only [maxAge, List.foldr_cons] at *
      rcases le_total a.age (List.foldr (fun l m => max l.age m) 0 rest) with hle | hle
      · exact ⟨l, by simp [hl], by rw [hl', max_eq_right hle]⟩
      · exact ⟨a, by simp, by rw [max_eq_left hle]⟩

/-- A lookup hits exactly when a valid line holds the tag. -/
theorem lookupSet_hit_iff (t : Nat) (ls : CacheSet) :
    (lookupSet t ls).2 = true ↔ ∃ l ∈ ls, l.valid = true ∧ l.tag = t := by
  have key : (findHit t ls).isSome = true ↔ ∃ l ∈ ls, l.valid = true ∧ l.tag = t := by
    simp [findHit]
  rw [← key]
  unfold lookupSet
  cases findHit t ls with
  | some w => simp
  | none => cases findVictim ls <;> simp

/-- Everything a lookup in a set can do: it hits the lowest line that matches; it fills the lowest empty line; it
replaces the lowest line of the highest age in a full set; or the set has no line at all. -/
theorem lookupSet_cases (t : Nat) (ls : CacheSet) :
    (∃ w l, ls[w]? = some l ∧ l.valid = true ∧ l.tag = t
        ∧ (∀ k m, k < w → ls[k]? = some m → ¬(m.valid = true ∧ m.tag = t))
        ∧ lookupSet t ls = (refresh w ls, true))
    ∨ ((∀ l ∈ ls, ¬(l.valid = true ∧ l.tag = t)) ∧ ∃ w l, ls[w]? = some l ∧ l.valid = false
        ∧ (∀ k m, k < w → ls[k]? = some m → m.valid = true)
        ∧ lookupSet t ls = (refresh w (insertTag t w ls), false))
    ∨ ((∀ l ∈ ls, l.valid = true ∧ l.tag ≠ t) ∧ ∃ w l, ls[w]? = some l ∧ (∀ m ∈ ls, m.age ≤ l.age)
        ∧ (∀ k m, k < w → ls[k]? = some m → m.age < l.age)
        ∧ lookupSet t ls = (refresh w (insertTag t w ls), false))
    ∨ (ls = [] ∧ lookupSet t ls = ([], false)) := by
  cases hhit : findHit t ls with
  | some w =>
    left
    obtain ⟨hlt, hw, hlow⟩ := List.findIdx?_eq_some_iff_getElem.mp hhit
    refine ⟨w, ls[w], by simp [hlt], by simp_all, by simp_all, fun k m hk hm => ?_, by simp [lookupSet, hhit]⟩
    obtain ⟨hk', rfl⟩ := List.getElem?_eq_some_iff.mp hm
    simpa using hlow k hk
  | none =>
    have hno : ∀ l ∈ ls, ¬(l.valid = true ∧ l.tag = t) := by
      simpa [findHit] using hhit
    cases hemp : findEmpty ls with
    | some w =>
      right; left
      obtain ⟨hlt, hw, hlow⟩ := List.findIdx?_eq_some_iff_getElem.mp hemp
      refine ⟨hno, w, ls[w], by simp [hlt], by simpa using hw, fun k m hk hm => ?_,
        by simp [lookupSet, hhit, findVictim, hemp]⟩
      obtain ⟨hk', rfl⟩ := List.getElem?_eq_some_iff.mp hm
      simpa using hlow k hk
    | none =>
      have hfull : ∀ l ∈ ls, l.valid = true := by simpa [findEmpty] using hemp
      right; right
      cases hold : findOldest ls with
      | some w =>
        left
        obtain ⟨hlt, hw, hlow⟩ := List.findIdx?_eq_some_iff_getElem.mp hold
        have hw' : ls[w].age = maxAge ls := by simpa using hw
        refine ⟨fun l hl => ⟨hfull l hl, fun h => hno l hl ⟨hfull l hl, h⟩⟩, w, ls[w], by simp [hlt],
          fun m hm => hw' ▸ le_maxAge hm, fun k m hk hm => ?_, by simp [lookupSet, hhit, findVictim, hemp, hold]⟩
        obtain ⟨hk', rfl⟩ := List.getElem?_eq_some_iff.mp hm
        have h1 : ¬(ls[k].age = maxAge ls) := by simpa using hlow k hk
        have h2 := le_maxAge (List.getElem_mem hk')
        omega
      | none =>
        right
        have hnone : ∀ l ∈ ls, ¬(l.age = maxAge ls) := by simpa [findOldest] using hold
        have hnil : ls = [] := by
          by_contra h
          obtain ⟨l, hl, hl'⟩ := exists_maxAge h
          exact hnone l hl hl'
        exact ⟨hnil, by subst hnil; rfl⟩

/-- A lookup keeps the number of lines. -/
@[simp] theorem lookupSet_length (t : Nat) (ls : CacheSet) : (lookupSet t ls).1.length = ls.length := by
  rcases lookupSet_cases t ls with ⟨w, l, _, _, _, _, h⟩ | ⟨_, w, l, _, _, _, h⟩ | ⟨_, w, l, _, _, _, h⟩ | ⟨h, h'⟩ <;>
    simp_all

/-- The set a LOOKUP selects, after it. -/
theorem Instance.set_lookup_same {c : Instance} (h : setsCanonical c.cfg.associativity c.sets = true) (addr : Addr) :
    (c.lookup addr).set (c.cfg.index addr) = (lookupSet (c.cfg.tag addr) (c.set (c.cfg.index addr))).1 :=
  Instance.set_putSet_same h _ _

/-- The other sets after a LOOKUP. -/
theorem Instance.set_lookup_other (c : Instance) {addr : Addr} {j : Nat} (h : j ≠ c.cfg.index addr) :
    (c.lookup addr).set j = c.set j :=
  Instance.set_putSet_other c h _

/-- When a LOOKUP hits. -/
theorem Instance.hits_iff (c : Instance) (addr : Addr) :
    c.hits addr = true ↔ ∃ l ∈ c.set (c.cfg.index addr), l.valid = true ∧ l.tag = c.cfg.tag addr :=
  lookupSet_hit_iff _ _

end Sys2Proof.Machine
end

