-- ==== Sys2Proof/Laws/Encoding.lean ====
section
/-! SUPPORT. The command word as a number: what a field reads, what the layout makes, and the format each `op` value
selects. -/

namespace Sys2Proof

/-- A field of a word, as the digits of the number the word is. -/
theorem extractLsb'_toNat_eq (w : CommandWord) (start len : Nat) :
    (w.extractLsb' start len).toNat = w.toNat / 2 ^ start % 2 ^ len := by
  simp [BitVec.extractLsb', Nat.shiftRight_eq_div_pow]

/-- A register operand is six bits. -/
theorem encodeOperand_lt (x : RegOp) : encodeOperand x < 64 := by
  cases x <;> simp [encodeOperand]
  omega

/-- The presence bit and the index of an encodable operand read back as the operand. -/
theorem decodeOperand_encodeOperand {x : RegOp} (h : RegOp.encodable x = true) :
    decodeOperand (BitVec.ofNat 1 (encodeOperand x / 32)) (BitVec.ofNat 5 (encodeOperand x)) = .ok x := by
  cases x with
  | none => rfl
  | some r =>
    have hr : r < 32 := by simpa [RegOp.encodable, Config.regW] using h
    have hp : (2 ^ 5 + r % 2 ^ 5) / 32 = 1 := by omega
    simp only [encodeOperand, hp, decodeOperand]
    simpa using hr

/-- The layout does not overflow: every field keeps its place. -/
theorem layoutWord_toNat (op : BitVec 4) (a b c : RegOp) (lo : BitVec 32) :
    (layoutWord op a b c lo).toNat = op.toNat * 2 ^ 60 + encodeOperand a * 2 ^ 54 + encodeOperand b * 2 ^ 48
      + encodeOperand c * 2 ^ 42 + lo.toNat := by
  have := encodeOperand_lt a
  have := encodeOperand_lt b
  have := encodeOperand_lt c
  have := op.isLt
  have := lo.isLt
  simp only [layoutWord, BitVec.toNat_ofNat]
  omega

/-- The `op` field of a layout. -/
theorem fieldOp_layoutWord (op : BitVec 4) (a b c : RegOp) (lo : BitVec 32) :
    fieldOp (layoutWord op a b c lo) = op := by
  have := encodeOperand_lt a
  have := encodeOperand_lt b
  have := encodeOperand_lt c
  have := op.isLt
  have := lo.isLt
  apply BitVec.eq_of_toNat_eq
  rw [fieldOp, extractLsb'_toNat_eq, layoutWord_toNat]
  omega

/-- The `lo` field of a layout. -/
theorem fieldLo_layoutWord (op : BitVec 4) (a b c : RegOp) (lo : BitVec 32) :
    fieldLo (layoutWord op a b c lo) = lo := by
  have := encodeOperand_lt a
  have := encodeOperand_lt b
  have := encodeOperand_lt c
  have := op.isLt
  have := lo.isLt
  apply BitVec.eq_of_toNat_eq
  rw [fieldLo, extractLsb'_toNat_eq, layoutWord_toNat]
  omega

/-- The format each `op` value selects (30_encoding.md R83). -/
theorem decode_of_fieldOp (w : CommandWord) :
    (fieldOp w = 0x0#4 → decode w = decodeAddrOnly w .processNop)
    ∧ (fieldOp w = 0x1#4 → decode w = decodeThreeOperands w .processRtype)
    ∧ (fieldOp w = 0x2#4 → decode w = decodeTwoOperands w .processLoad)
    ∧ (fieldOp w = 0x3#4 → decode w = decodeTwoOperands w .processStore)
    ∧ (fieldOp w = 0x4#4 → decode w = decodeAddrOnly w .processBranch)
    ∧ (fieldOp w = 0x5#4 → decode w = decodeAddrOnly w .processJump)
    ∧ (fieldOp w = 0x6#4 → decode w = decodeAddrOnly w .processSyscall)
    ∧ (fieldOp w = 0x8#4 → decode w = decodeAddrOnly w .lookup)
    ∧ (fieldOp w = 0x9#4 → decode w = decodeBare w .advance)
    ∧ (fieldOp w = 0xA#4 → decode w = decodeAddrOnly w .fetchAccess)
    ∧ (fieldOp w = 0xB#4 → decode w = decodeBare w .finalize)
    ∧ (fieldOp w = 0xC#4 → decode w = decodeConfigure w) := by
  refine ⟨?_, ?_, ?_, ?_, ?_, ?_, ?_, ?_, ?_, ?_, ?_, ?_⟩ <;> intro h <;> unfold decode <;> rw [h] <;> rfl

end Sys2Proof
end

