-- ==== Sys2Proof/Laws/PerInstr.lean ====
section
/-! SUPPORT. Statements for all commands, made per command: the word of a command carries the command's `op` value, and
so selects the format of R83 that reads it back. -/

namespace Sys2Proof.Laws.EncodedOpcode

/-- The `op` field of the word of a command is the command's (30_encoding.md R83). -/
def Statement (i : Instr) : Prop := fieldOp (encode i) = i.opcode

theorem processNop (addr : Addr) : Statement (.processNop addr) := fieldOp_layoutWord ..
theorem processRtype (addr : Addr) (dest : RegOp) (src1 : RegOp) (src2 : RegOp) : Statement (.processRtype addr dest src1 src2) := fieldOp_layoutWord ..
theorem processLoad (addr : Addr) (dest : RegOp) (base : RegOp) : Statement (.processLoad addr dest base) := fieldOp_layoutWord ..
theorem processStore (addr : Addr) (src : RegOp) (base : RegOp) : Statement (.processStore addr src base) := fieldOp_layoutWord ..
theorem processBranch (addr : Addr) : Statement (.processBranch addr) := fieldOp_layoutWord ..
theorem processJump (addr : Addr) : Statement (.processJump addr) := fieldOp_layoutWord ..
theorem processSyscall (addr : Addr) : Statement (.processSyscall addr) := fieldOp_layoutWord ..
theorem lookup (addr : Addr) : Statement (.lookup addr) := fieldOp_layoutWord ..
theorem advance : Statement (.advance) := fieldOp_layoutWord ..
theorem fetchAccess (addr : Addr) : Statement (.fetchAccess addr) := fieldOp_layoutWord ..
theorem finalize : Statement (.finalize) := fieldOp_layoutWord ..
theorem configure (ib : Nat) (bsw : Nat) (assoc : Nat) (pred : Prediction) : Statement (.configure ib bsw assoc pred) := fieldOp_layoutWord ..

end Sys2Proof.Laws.EncodedOpcode
end

