-- ==== Sys2Proof/Laws/Pipeline.lean ====
section
/-! SUPPORT. What ADVANCE and the commands built on it can do, said once: whatever a body of ADVANCE keeps, ADVANCE, the
burn, the drain and the insertion keep. -/

namespace Sys2Proof.Machine

/-- `repeat n times` is iteration. -/
theorem repeatTimes_eq_iterate {α : Type} (n : Nat) (f : α → α) (x : α) : repeatTimes n f x = f^[n] x := by
  induction n generalizing x with
  | zero => rfl
  | succ k ih => simp [repeatTimes, ih]

/-- What one run of the body keeps, the repetition keeps. -/
theorem repeatTimes_induction {α : Type} {P : α → Prop} {f : α → α} (hf : ∀ x, P x → P (f x)) (n : Nat) {x : α}
    (hx : P x) : P (repeatTimes n f x) := by
  induction n generalizing x with
  | zero => exact hx
  | succ k ih => exact ih (hf x hx)

/-- What a quiet body and a detecting body keep, ADVANCE_BODY keeps, with all its replays. -/
theorem Instance.advanceBody_induction {P : Instance → Prop}
    (quiet : ∀ c, P c → P c.retire.tickAndShift)
    (detecting : ∀ c, P c → P c.retire.detect.2.tickAndShift)
    (redetect : Bool) (depth : Nat) (detects : Bool) {c : Instance} (hc : P c) :
    P (c.advanceBody redetect depth detects) := by
  induction depth generalizing detects c with
  | zero => exact quiet c hc
  | succ d ih =>
    simp only [Instance.advanceBody]
    split
    · exact repeatTimes_induction (fun x hx => ih redetect hx) _ (detecting c hc)
    · exact quiet c hc

/-- What the two bodies keep, ADVANCE keeps. -/
theorem Instance.advance_induction {P : Instance → Prop}
    (quiet : ∀ c, P c → P c.retire.tickAndShift)
    (detecting : ∀ c, P c → P c.retire.detect.2.tickAndShift)
    (p : Params) {c : Instance} (hc : P c) : P (c.advance p) :=
  Instance.advanceBody_induction quiet detecting _ _ _ hc

/-- What ADVANCE keeps, the drain keeps. -/
theorem Instance.finalize_induction {P : Instance → Prop} {p : Params} (adv : ∀ c, P c → P (c.advance p))
    {c : Instance} (hc : P c) : P (c.finalize p) := by
  have drain : ∀ (fuel : Nat) (d : Instance), P d → P (d.drain p fuel) := by
    intro fuel
    induction fuel with
    | zero => exact fun d hd => hd
    | succ k ih =>
      intro d hd
      simp only [Instance.drain]
      split
      · exact hd
      · exact ih _ (adv d hd)
  exact drain _ c hc

/-- FETCH_ACCESS on a hit. -/
theorem Instance.fetchAccess_of_hit {p : Params} {addr : Addr} {c : Instance} (h : c.hits addr = true) :
    c.fetchAccess p addr = c.lookup addr := by
  simp [Instance.fetchAccess, h]

/-- FETCH_ACCESS on a miss. -/
theorem Instance.fetchAccess_of_miss {p : Params} {addr : Addr} {c : Instance} (h : c.hits addr = false) :
    c.fetchAccess p addr = (Instance.advance p)^[p.missPenalty - 1] (c.lookup addr) := by
  simp [Instance.fetchAccess, h, repeatTimes_eq_iterate]

/-- What the lookup and ADVANCE keep, FETCH_ACCESS keeps. -/
theorem Instance.fetchAccess_induction {P : Instance → Prop} {p : Params} (adv : ∀ c, P c → P (c.advance p))
    {addr : Addr} {c : Instance} (hl : P (c.lookup addr)) : P (c.fetchAccess p addr) := by
  simp only [Instance.fetchAccess]
  split
  · exact hl
  · exact repeatTimes_induction adv _ hl

/-- ADVANCE always leaves FETCH empty. -/
@[simp] theorem Instance.advance_fetch (p : Params) (c : Instance) : (c.advance p).bank.fetch = Slot.empty := by
  have body : ∀ (depth : Nat) (d : Instance), (d.advanceBody p.replayRedetect depth p.replayRedetect).bank.fetch
      = Slot.empty := by
    intro depth
    induction depth with
    | zero => exact fun d => rfl
    | succ k ih =>
      intro d
      simp only [Instance.advanceBody]
      split
      · exact repeatTimes_induction (P := fun x => x.bank.fetch = Slot.empty) (fun x _ => ih x) _
          (x := d.retire.detect.2.tickAndShift) rfl
      · rfl
  exact repeatTimes_induction (P := fun x => x.bank.fetch = Slot.empty) (fun x _ => body _ x) _
    (x := c.retire.detect.2.tickAndShift) rfl

/-- ADVANCE writes neither the configuration nor the cache. -/
theorem Instance.advance_cfg_sets (p : Params) (c : Instance) :
    (c.advance p).cfg = c.cfg ∧ (c.advance p).sets = c.sets :=
  Instance.advance_induction (P := fun d => d.cfg = c.cfg ∧ d.sets = c.sets) (fun _ h => h) (fun _ h => h) p ⟨rfl, rfl⟩

@[simp] theorem Instance.advance_cfg (p : Params) (c : Instance) : (c.advance p).cfg = c.cfg :=
  (c.advance_cfg_sets p).1
@[simp] theorem Instance.advance_sets (p : Params) (c : Instance) : (c.advance p).sets = c.sets :=
  (c.advance_cfg_sets p).2

@[simp] theorem Instance.process_cfg (p : Params) (x : Slot) (c : Instance) : (c.process p x).cfg = c.cfg := by
  simp [Instance.process]
@[simp] theorem Instance.process_sets (p : Params) (x : Slot) (c : Instance) : (c.process p x).sets = c.sets := by
  simp [Instance.process]
@[simp] theorem Instance.process_bank (p : Params) (x : Slot) (c : Instance) :
    (c.process p x).bank = (c.advance p).bank.insert x := rfl
@[simp] theorem Instance.process_ctr (p : Params) (x : Slot) (c : Instance) :
    (c.process p x).ctr = (c.advance p).ctr := rfl

end Sys2Proof.Machine
end

