-- ==== Sys2Proof/Laws/Port.lean ====
section
/-! SUPPORT. What each operation on the command port and the fatal register can do: one lemma per case, so that no
proof unfolds them. -/

namespace Sys2Proof.Machine

/-- A command on a running block: its effect on the instance, and its answer. -/
theorem State.onInstance_of_running {s : State} {c : Instance} (f : Instance → Instance × Response)
    (hf : s.fatal = none) (hi : s.inst = some c) :
    s.onInstance f = { s with inst := some (f c).1, response := some (f c).2 } := by
  simp [State.onInstance, hf, hi, State.withInst, State.answer]

/-- A command in the fatal state or before the first CONFIGURE: refused. -/
theorem State.onInstance_of_closed {s : State} (f : Instance → Instance × Response)
    (h : s.fatal ≠ none ∨ s.inst = none) : s.onInstance f = { s with response := some .refused } := by
  cases hf : s.fatal <;> cases hi : s.inst <;>
    simp_all [State.onInstance, State.refuse, State.answer]

/-- An ill-formed command on a running block: ParseError. -/
theorem State.parseError_of_running {s : State} {c : Instance} (hf : s.fatal = none) (hi : s.inst = some c) :
    s.parseError = { s with fatal := some .parseError, response := some (.fatal .parseError) } := by
  simp [State.parseError, hf, hi, State.raiseFatal, State.withFatal, State.answer]

/-- An ill-formed command elsewhere: refused, and nothing recorded. -/
theorem State.parseError_of_closed {s : State} (h : s.fatal ≠ none ∨ s.inst = none) :
    s.parseError = { s with response := some .refused } := by
  cases hf : s.fatal <;> cases hi : s.inst <;>
    simp_all [State.parseError, State.refuse, State.answer]

/-- A PROCESS command with its mandatory operand present. -/
theorem State.process_of_present {s : State} {x : Slot} (h : x.mandatoryPresent = true) :
    s.process x = s.onInstance (fun c => (c.process s.params x, .done)) := by
  simp [State.process, h]

/-- A PROCESS command without it. -/
theorem State.process_of_absent {s : State} {x : Slot} (h : x.mandatoryPresent = false) :
    s.process x = s.parseError := by
  simp [State.process, h]

/-- CONFIGURE with an accepted configuration. -/
theorem State.construct_of_legal {s : State} {g : Cfg} (h : Cfg.legal s.params g = true) :
    s.construct g = { s with inst := some (freshInstance g), fatal := none, response := some .ok } := by
  simp [State.construct, h, State.withInst, State.withFatal, State.answer]

/-- CONFIGURE with any other. -/
theorem State.construct_of_illegal {s : State} {g : Cfg} (h : Cfg.legal s.params g = false) :
    s.construct g = { s with
      inst := none
      fatal := some .configurationError
      response := some (.fatal .configurationError) } := by
  simp [State.construct, h, State.withInst, State.raiseFatal, State.withFatal, State.answer]

/-- The conditions of a legal configuration, written out. -/
theorem Cfg.legal_iff (p : Params) (g : Cfg) :
    Cfg.legal p g = true ↔ (1 ≤ g.blockSizeWords ∧ 1 ≤ g.associativity ∧ g.indexBits + 2 * g.blockSizeWords ≤ 32)
      ∧ g.associativity * 2 ^ g.indexBits * (4 * g.blockSizeWords) ≤ p.capacityLimit := by
  simp only [Cfg.legal, Cfg.inRange, Bool.and_eq_true, decide_eq_true_eq, and_assoc]
  rfl

/-- Every command answers a next state. -/
theorem exec_next (i : Instr) (s : State) : ∃ t, exec i s = .next t := by
  cases i <;> exact ⟨_, rfl⟩

end Sys2Proof.Machine
end

