-- ==== Sys2Proof/Machine/Assembly.lean ====
section
/-! DEFINITION. The spec's own assembly text for commands (30_encoding.md R103): addresses are hexadecimal with `0x`, a
register operand is `r` and its decimal index, or `-` where it is absent. The block reads no text. -/

namespace Sys2Proof.Machine

/-- The lowest `n` hexadecimal digits of a number, most significant first. -/
def hexDigits (n w : Nat) : List Char :=
  match n with
  | 0 => []
  | k + 1 => hexDigits k (w / 16) ++ [(Nat.digitChar (w % 16)).toUpper]

/-- An address: `0x` and eight digits. -/
def addrText (addr : Addr) : String := "0x" ++ String.ofList (hexDigits 8 addr.toNat)

/-- A register operand. -/
def operandText (x : RegOp) : String :=
  match x with
  | none => "-"
  | some r => "r" ++ Nat.repr r

/-- The prediction as a digit. -/
def predictionText (p : Prediction) : String :=
  match p with
  | .alwaysNotTaken => "0"
  | .alwaysTaken => "1"

/-- The text of a command (R103). -/
def assemblyText (i : Instr) : String :=
  match i with
  | .processNop addr => "PROCESS_NOP " ++ addrText addr
  | .processRtype addr dest src1 src2 =>
    "PROCESS_RTYPE " ++ addrText addr ++ " " ++ operandText dest ++ ", " ++ operandText src1 ++ ", " ++ operandText src2
  | .processLoad addr dest base => "PROCESS_LOAD " ++ addrText addr ++ " " ++ operandText dest ++ ", " ++ operandText base
  | .processStore addr src base => "PROCESS_STORE " ++ addrText addr ++ " " ++ operandText src ++ ", " ++ operandText base
  | .processBranch addr => "PROCESS_BRANCH " ++ addrText addr
  | .processJump addr => "PROCESS_JUMP " ++ addrText addr
  | .processSyscall addr => "PROCESS_SYSCALL " ++ addrText addr
  | .lookup addr => "LOOKUP " ++ addrText addr
  | .advance => "ADVANCE"
  | .fetchAccess addr => "FETCH_ACCESS " ++ addrText addr
  | .finalize => "FINALIZE"
  | .configure ib bsw assoc p =>
    "CONFIGURE index_bits=" ++ Nat.repr ib ++ " block_size_words=" ++ Nat.repr bsw ++ " associativity=" ++ Nat.repr assoc
      ++ " branch_prediction=" ++ predictionText p

end Sys2Proof.Machine
end

