-- ==== Sys2Proof/Tests/Slice0.lean ====
section
/-! SUPPORT. Tests on fixed values, their expected results taken from the spec's own tables (30_encoding.md R105,
95_test_vectors.md), and one witness for the hypotheses of each statement. -/

open Sys2Proof Sys2Proof.Machine

namespace Sys2Proof.Tests

/-! Well-formedness: one ill-formed term for each check. -/

theorem test_rtype_without_dest : (Instr.processRtype 0x10#32 none (some 1) none).wellFormed = false := by decide
theorem test_load_without_dest : (Instr.processLoad 0x10#32 none (some 1)).wellFormed = false := by decide
theorem test_store_without_src : (Instr.processStore 0x10#32 none (some 1)).wellFormed = false := by decide
theorem test_rtype_dest_32 : (Instr.processRtype 0x10#32 (some 32) none none).wellFormed = false := by decide
theorem test_rtype_src1_32 : (Instr.processRtype 0x10#32 (some 1) (some 32) none).wellFormed = false := by decide
theorem test_rtype_src2_32 : (Instr.processRtype 0x10#32 (some 1) none (some 32)).wellFormed = false := by decide
theorem test_load_base_32 : (Instr.processLoad 0x10#32 (some 1) (some 32)).wellFormed = false := by decide
theorem test_store_base_32 : (Instr.processStore 0x10#32 (some 1) (some 32)).wellFormed = false := by decide
theorem test_configure_index_bits_64 : (Instr.configure 64 1 1 .alwaysTaken).wellFormed = false := by decide
theorem test_configure_block_size_32 : (Instr.configure 1 32 1 .alwaysTaken).wellFormed = false := by decide
theorem test_configure_associativity_65536 : (Instr.configure 1 1 65536 .alwaysTaken).wellFormed = false := by decide
theorem test_well_formed_at_the_bounds :
    (Instr.processRtype 0xFFFFFFFF#32 (some 31) none (some 31)).wellFormed = true
    ∧ (Instr.configure 63 31 65535 .alwaysTaken).wellFormed = true := by decide

/-! Decoding: words written out from the layout of R81, one for each command (R105 and vector V16). -/

/-- `op` 1, operand a = 1 01000 (r8), b = 1 01001 (r9), c = 1 01010 (r10), z = 0, lo = 0x00400010 (R105). -/
theorem test_decode_rtype :
    decode 0b0001_1_01000_1_01001_1_01010_0000000000_00000000010000000000000000010000#64
      = .ok (.processRtype 0x00400010#32 (some 8) (some 9) (some 10)) := by rfl
/-- `op` 2, a = 1 01000 (r8), b = 1 11101 (r29), the rest zero, lo = 0x00400018 (R105). -/
theorem test_decode_load :
    decode 0b0010_1_01000_1_11101_0_00000_0000000000_00000000010000000000000000011000#64
      = .ok (.processLoad 0x00400018#32 (some 8) (some 29)) := by rfl
/-- `op` 3, a = 1 01000 (r8), b = 1 11101 (r29), the rest zero, lo = 0x0040001C (R105). -/
theorem test_decode_store :
    decode 0b0011_1_01000_1_11101_0_00000_0000000000_00000000010000000000000000011100#64
      = .ok (.processStore 0x0040001C#32 (some 8) (some 29)) := by rfl
theorem test_decode_nop : decode 0x000000000040002C#64 = .ok (.processNop 0x0040002C#32) := by rfl
theorem test_decode_branch : decode 0x4000000000400020#64 = .ok (.processBranch 0x00400020#32) := by rfl
theorem test_decode_jump : decode 0x5000000000400024#64 = .ok (.processJump 0x00400024#32) := by rfl
theorem test_decode_syscall : decode 0x6000000000400028#64 = .ok (.processSyscall 0x00400028#32) := by rfl
theorem test_decode_lookup : decode 0x8000000000000010#64 = .ok (.lookup 0x00000010#32) := by rfl
theorem test_decode_advance : decode 0x9000000000000000#64 = .ok .advance := by rfl
theorem test_decode_fetch_access : decode 0xA000000000400010#64 = .ok (.fetchAccess 0x00400010#32) := by rfl
theorem test_decode_finalize : decode 0xB000000000000000#64 = .ok .finalize := by rfl
/-- `op` 12, lo[27] = 1 (taken), lo[26:11] = 2, lo[10:6] = 4, lo[5:0] = 7 (R96, R105). -/
theorem test_decode_configure :
    decode 0b1100_0000000000000000000000000000_0000_1_0000000000000010_00100_000111#64
      = .ok (.configure 7 4 2 .alwaysTaken) := by rfl
/-- All of CONFIGURE's fields at their highest values (R96). -/
theorem test_decode_configure_full :
    decode 0xC00000000FFFFFFF#64 = .ok (.configure 63 31 65535 .alwaysTaken) := by rfl

/-- One rejected word for each condition of R93, and each format's must-be-zero field (V16). -/
theorem test_decode_rejects :
    decode 0x7000000000000000#64 = .error .reservedOp ∧ decode 0xF000000000000001#64 = .error .reservedOp
    ∧ decode 0x9000000000000001#64 = .error .mustBeZero ∧ decode 0xB000000100000000#64 = .error .mustBeZero
    ∧ decode 0x1A29A80100400010#64 = .error .mustBeZero ∧ decode 0x2A3D040000400018#64 = .error .mustBeZero
    ∧ decode 0x4800000000400020#64 = .error .mustBeZero ∧ decode 0x8000000100000010#64 = .error .mustBeZero
    ∧ decode 0xC000000010000842#64 = .error .mustBeZero ∧ decode 0xC000000100000842#64 = .error .mustBeZero
    ∧ decode 0x1A09A80000400010#64 = .error .absentIndexNonzero
    ∧ decode 0x1229A80000400010#64 = .error .absentIndexNonzero
    ∧ decode 0x2000000000400018#64 = .error .mandatoryAbsent := by
  refine ⟨rfl, rfl, rfl, rfl, rfl, rfl, rfl, rfl, rfl, rfl, rfl, rfl, rfl⟩

/-- The opcode table's numbering: the word itself, and zeros above the bits the table gives. -/
theorem test_table_word : decodeTableWord 64 0x2A3D000000400018 = some (.processLoad 0x00400018#32 (some 8) (some 29))
    ∧ decodeTableWord 64 0x7000000000000000 = none := by decide

/-- The assembly column of R105. -/
theorem test_assembly_text :
    assemblyText (.processStore 0x0040001C#32 (some 8) (some 29)) = "PROCESS_STORE 0x0040001C r8, r29"
    ∧ assemblyText (.processRtype 0x00400014#32 (some 8) none none) = "PROCESS_RTYPE 0x00400014 r8, -, -"
    ∧ assemblyText (.configure 7 4 2 .alwaysTaken)
        = "CONFIGURE index_bits=7 block_size_words=4 associativity=2 branch_prediction=1" := by decide

/-! Small states. -/

/-- MISS_PENALTY 3 and CAPACITY_LIMIT 65536, as the vectors have them; the canonical policy. -/
def params : Params := ⟨3, 65536, false⟩
/-- The same with replays that detect (V12). -/
def redetecting : Params := ⟨3, 65536, true⟩
/-- The configuration of most vectors. -/
def cfg : Cfg := ⟨2, 1, 1, .alwaysNotTaken⟩
/-- A running block. -/
def run (c : Instance) : State := ⟨params, some c, none, [], none⟩
/-- A block of the vectors' configuration with a given bank. -/
def withSlots (f d a m w : Slot) : Instance := (freshInstance cfg).withBank ⟨f, d, a, m, w⟩
/-- What an outcome's instance shows. -/
def shows {α : Type} (o : Host.Outcome State Fault Refusal) (f : Instance → α) : Option (α × Option Response) :=
  match o with
  | .next t => t.inst.map (fun c => (f c, t.response))
  | _ => none
/-- What an outcome's state shows. -/
def showsState {α : Type} (o : Host.Outcome State Fault Refusal) (f : State → α) : Option α :=
  match o with
  | .next t => some (f t)
  | _ => none

/-- EMPTY. -/
def e : Slot := .nop 0#32
/-- An instruction that no rule reads. -/
def r123 (addr : Addr) : Slot := .rtype addr (some 1) (some 2) (some 3)

theorem run_running (c : Instance) : (run c).Running c := ⟨rfl, rfl⟩

/-! One step of each command, from the vectors. -/

/-- V3 step 4: the hit of step 3 made tag 0 the youngest, so tag 1 is evicted. -/
theorem test_lookup_evicts_oldest :
    shows (exec (.lookup 0x00000008#32)
        (run ((freshInstance ⟨0, 1, 2, .alwaysNotTaken⟩).withSets [(0, [⟨true, 0, 0⟩, ⟨true, 1, 1⟩])])))
      (fun c => (c.sets, c.ctr.cacheAccess, c.ctr.cacheHit, c.ctr.cacheMiss, c.ctr.cycleCount))
    = some (([(0, [⟨true, 0, 1⟩, ⟨true, 2, 0⟩])], 1, 0, 1, 0), some .miss) := by rfl
/-- V4 step 5: a hit in line 0 ages the other three lines. -/
theorem test_lookup_hit_ages :
    shows (exec (.lookup 0x00000004#32)
        (run ((freshInstance ⟨1, 1, 4, .alwaysNotTaken⟩).withSets
          [(1, [⟨true, 0, 3⟩, ⟨true, 1, 2⟩, ⟨true, 2, 1⟩, ⟨true, 3, 0⟩])])))
      (fun c => (c.sets, c.ctr.cacheAccess, c.ctr.cacheHit, c.ctr.cacheMiss))
    = some (([(1, [⟨true, 0, 0⟩, ⟨true, 1, 3⟩, ⟨true, 2, 2⟩, ⟨true, 3, 1⟩])], 1, 1, 0), some .hit) := by rfl

/-- V6 row 7: the slot in WRITEBACK retires, the slot at address 0 does not. -/
theorem test_advance_retires :
    shows (exec .advance (run (withSlots e e e (.rtype 0#32 (some 4) (some 5) (some 6)) (r123 0x100#32))))
      (fun c => (c.bank.slots, c.ctr.cycleCount, c.ctr.retiredCount))
    = some (([e, e, e, e, .rtype 0#32 (some 4) (some 5) (some 6)], 1, 1), some .done) := by decide
/-- V12 row 6 with REPLAY_REDETECT: the replay evaluates the branch, and a second replay follows. -/
theorem test_advance_redetects :
    shows (exec .advance ⟨redetecting, some (withSlots (.branch 0x10C#32) (r123 0x108#32)
        (.rtype 0x104#32 (some 10) (some 8) (some 9)) (.load 0x100#32 (some 8) (some 29)) e), none, [], none⟩)
      (fun c => (c.bank.slots, c.ctr.cycleCount, c.ctr.retiredCount, c.ctr.branchCount, c.ctr.correctBranchCount))
    = some (([e, e, e, .branch 0x10C#32, r123 0x108#32], 3, 2, 1, 0), some .done) := by decide

/-- V11 row 6: two stall units, two quiet replays, and the new slot behind two bubbles. -/
theorem test_process_rtype_two_stalls :
    shows (exec (.processRtype 0x204#32 (some 1) (some 2) (some 3)) (run (withSlots (r123 0x200#32)
        (.branch 0x108#32) (.rtype 0x104#32 (some 10) (some 8) (some 9)) (.load 0x100#32 (some 8) (some 29)) e)))
      (fun c => (c.bank.slots, c.ctr.cycleCount, c.ctr.retiredCount, c.ctr.branchCount, c.ctr.correctBranchCount))
    = some (([r123 0x204#32, e, e, r123 0x200#32, .branch 0x108#32], 3, 2, 1, 0), some .done) := by decide
/-- V10 row 6: the store dependency. -/
theorem test_process_nop_store_dependency :
    shows (exec (.processNop 0x110#32) (run (withSlots (.nop 0x10C#32) (.nop 0x108#32)
        (.rtype 0x104#32 (some 29) (some 1) (some 2)) (.store 0x100#32 (some 8) (some 29)) e)))
      (fun c => (c.bank.slots, c.ctr.cycleCount, c.ctr.retiredCount))
    = some (([.nop 0x110#32, e, .nop 0x10C#32, .nop 0x108#32, .rtype 0x104#32 (some 29) (some 1) (some 2)], 2, 1),
        some .done) := by decide
/-- V9 row 2. -/
theorem test_process_load :
    shows (exec (.processLoad 0x100#32 (some 8) (some 29)) (run (freshInstance cfg)))
      (fun c => (c.bank.slots, c.ctr.cycleCount, c.sets)) = some (([.load 0x100#32 (some 8) (some 29), e, e, e, e], 1, []),
        some .done) := by rfl
/-- V10 row 2. -/
theorem test_process_store :
    shows (exec (.processStore 0x100#32 (some 8) (some 29)) (run (freshInstance cfg)))
      (fun c => (c.bank.slots, c.ctr.cycleCount, c.sets)) = some (([.store 0x100#32 (some 8) (some 29), e, e, e, e], 1, []),
        some .done) := by rfl
/-- V8, the row at 0xFFFFFFFC: a successor at address 0 is adjacent, the prediction not-taken is right. -/
theorem test_process_branch_wraps :
    shows (exec (.processBranch 0x300#32) (run (withSlots (r123 0#32) (.branch 0xFFFFFFFC#32) e e e)))
      (fun c => (c.bank.slots, c.ctr.cycleCount, c.ctr.branchCount, c.ctr.correctBranchCount))
    = some (([.branch 0x300#32, r123 0#32, .branch 0xFFFFFFFC#32, e, e], 1, 1, 1), some .done) := by decide
/-- V8: a JUMP is never evaluated. -/
theorem test_process_jump :
    shows (exec (.processJump 0x204#32) (run (withSlots (r123 0x200#32) (.jump 0x100#32) e e e)))
      (fun c => (c.bank.slots, c.ctr.cycleCount, c.ctr.branchCount))
    = some (([.jump 0x204#32, r123 0x200#32, .jump 0x100#32, e, e], 1, 0), some .done) := by decide
/-- V8: a SYSCALL is a slot like any other. -/
theorem test_process_syscall :
    shows (exec (.processSyscall 0x204#32) (run (withSlots (r123 0x200#32) (.syscall 0x100#32) e e e)))
      (fun c => (c.bank.slots, c.ctr.cycleCount, c.ctr.branchCount))
    = some (([.syscall 0x204#32, r123 0x200#32, .syscall 0x100#32, e, e], 1, 0), some .done) := by decide

/-- V13 row 4: a miss burns two advances under MISS_PENALTY 3. -/
theorem test_fetch_access_miss :
    shows (exec (.fetchAccess 0x104#32) (run ((withSlots (r123 0x100#32) e e e e).withSets [(0, [⟨true, 0x10, 0⟩])])))
      (fun c => (c.bank.slots, c.sets, c.ctr.cycleCount, c.ctr.cacheMiss))
    = some (([e, e, r123 0x100#32, e, e], [(0, [⟨true, 0x10, 0⟩]), (1, [⟨true, 0x10, 0⟩])], 2, 1), some .miss) := by rfl
/-- V13 row 6: a hit moves nothing. -/
theorem test_fetch_access_hit :
    shows (exec (.fetchAccess 0x100#32) (run ((withSlots (r123 0x104#32) e e e e).withSets [(0, [⟨true, 0x10, 0⟩])])))
      (fun c => (c.bank.slots, c.ctr.cycleCount, c.ctr.cacheHit, c.ctr.cacheMiss))
    = some (([r123 0x104#32, e, e, e, e], 0, 1, 0), some .hit) := by decide

/-- V15: three advances empty a bank whose lowest slot is in ALU. -/
theorem test_finalize_from_alu :
    shows (exec .finalize (run (withSlots e e (r123 0x100#32) e e)))
      (fun c => (c.bank.slots, c.ctr.cycleCount, c.ctr.retiredCount)) = some (([e, e, e, e, e], 3, 1), some .done) := by
  decide
/-- V15: a stall in the drain is absorbed. -/
theorem test_finalize_absorbs_stall :
    shows (exec .finalize (run (withSlots (.rtype 0x104#32 (some 10) (some 8) (some 9))
        (.load 0x100#32 (some 8) (some 29)) e e e)))
      (fun c => (c.bank.slots, c.ctr.cycleCount, c.ctr.retiredCount)) = some (([e, e, e, e, e], 5, 2), some .done) := by
  decide

/-- V17 and R250: a CONFIGURE on a fatal block is accepted and forgets everything. -/
theorem test_configure_recovers :
    showsState (exec (.configure 2 1 1 .alwaysNotTaken)
        { run (withSlots (r123 0x100#32) e e e e) with fatal := some .parseError })
      (fun t => (t.inst, t.fatal, t.response))
    = some (some ⟨cfg, [], ⟨e, e, e, e, e⟩, ⟨0, 0, 0, 0, 0, 0, 0⟩⟩, none, some .ok) := by decide
/-- R28 and R221: one byte too many is ConfigurationError. -/
theorem test_configure_over_capacity :
    showsState (exec (.configure 2 1 1 .alwaysNotTaken) { State.reset with params := ⟨3, 15, false⟩ })
      (fun t => (t.fatal, t.response)) = some (some .configurationError, some (.fatal .configurationError)) := by decide

/-! The step and the port. -/

/-- From reset, a word placed at the port is taken and refused before the first CONFIGURE (R253). -/
theorem test_reset_refuses : showsState (step (State.reset.withFetchWord 64 0x9000000000000000))
    (fun t => (t.inst, t.fatal, t.pending, t.response)) = some (none, none, [], some .refused) := by decide
/-- An ill-formed word on a running block (R222). -/
theorem test_step_parse_error : showsState (step ((run (freshInstance cfg)).withFetchWord 64 0x7000000000000000))
    (fun t => (t.inst, t.fatal, t.response))
    = some (some (freshInstance cfg), some .parseError, some (.fatal .parseError)) := by decide

/-! Witnesses: states and operands that meet the hypotheses of a statement, each clause at a boundary. -/

theorem witness_DecodeEncodeRoundTrip :
    (Instr.processRtype 0xFFFFFFFF#32 (some 31) none (some 0)).wellFormed = true
    ∧ (Instr.configure 63 31 65535 .alwaysTaken).wellFormed = true := by decide
theorem witness_EncodeDecodeRoundTrip : decode 0xC00000000FFFFFFF#64 = .ok (.configure 63 31 65535 .alwaysTaken) := by rfl
theorem witness_ReservedOpcodesAreRejected :
    (0x7000000000000000#64 : CommandWord).extractLsb' 60 4 = 0x7#4
    ∧ (0xD000000000000000#64 : CommandWord).extractLsb' 60 4 = 0xD#4
    ∧ (0xE000000000000000#64 : CommandWord).extractLsb' 60 4 = 0xE#4
    ∧ (0xFFFFFFFFFFFFFFFF#64 : CommandWord).extractLsb' 60 4 = 0xF#4 := by decide

/-- A running state with words at its port. -/
def queued (ws : List CommandWord) : State := { run (freshInstance cfg) with pending := ws }

theorem witness_StepRunsDecodedCommand :
    (queued [0x9000000000000000#64]).pending = 0x9000000000000000#64 :: []
    ∧ decode 0x9000000000000000#64 = .ok .advance := ⟨rfl, rfl⟩
theorem witness_PlacedWordIsExecuted : decodeTableWord 64 0xC000000008001107 = some (.configure 7 4 2 .alwaysTaken) := by
  decide
theorem witness_IllFormedWordRaisesParseError :
    (queued [0x7000000000000000#64]).Running (freshInstance cfg)
    ∧ (queued [0x7000000000000000#64]).pending = 0x7000000000000000#64 :: []
    ∧ ∀ i, decode 0x7000000000000000#64 ≠ .ok i := by
  refine ⟨⟨rfl, rfl⟩, rfl, fun i h => ?_⟩
  rw [show decode 0x7000000000000000#64 = .error .reservedOp from rfl] at h
  cases h
theorem witness_StepWithoutCommandIsIdle : State.reset.pending = [] := rfl
/-- Both ways of being closed, and both a well-formed and an ill-formed word. -/
theorem witness_ClosedStateRefusesAllButConfigure :
    { queued [0x9000000000000000#64] with fatal := some .parseError }.Closed
    ∧ (State.reset.withPending [0x7000000000000000#64]).Closed
    ∧ (∀ ib bsw assoc pred, decode 0x9000000000000000#64 ≠ .ok (.configure ib bsw assoc pred))
    ∧ (∀ ib bsw assoc pred, decode 0x7000000000000000#64 ≠ .ok (.configure ib bsw assoc pred)) := by
  refine ⟨.inl (by decide), .inr rfl, fun _ _ _ _ h => ?_, fun _ _ _ _ h => ?_⟩
  · rw [show decode 0x9000000000000000#64 = .ok .advance from rfl] at h
    cases h
  · rw [show decode 0x7000000000000000#64 = .error .reservedOp from rfl] at h
    cases h

/-- The one-block cache of V5 case a, exactly as large as the capacity. -/
theorem witness_ConfigureBuildsFreshInstance :
    1 ≤ 16 ∧ 1 ≤ 1 ∧ 0 + 2 * 16 ≤ 32 ∧ 1 * 2 ^ 0 * (4 * 16) ≤ (⟨1, 64, false⟩ : Params).capacityLimit := by decide
/-- Each condition of R221 alone. -/
theorem witness_ConfigureOutOfRangeIsFatal :
    0 < 1 ∧ 1 + 2 * 16 > 32 ∧ 1 * 2 ^ 0 * (4 * 16) > (⟨1, 63, false⟩ : Params).capacityLimit := by decide
theorem witness_ConfigureForgetsEverything :
    { run (withSlots (r123 0x100#32) e e e e) with fatal := some .parseError }.params = (run (freshInstance cfg)).params
    ∧ { run (withSlots (r123 0x100#32) e e e e) with fatal := some .parseError }.pending
        = (run (freshInstance cfg)).pending := ⟨rfl, rfl⟩
theorem witness_DecoderPartitionsAddress :
    (⟨0, 16, 1, .alwaysTaken⟩ : Cfg).indexBits + 2 * (⟨0, 16, 1, .alwaysTaken⟩ : Cfg).blockSizeWords ≤ 32
    ∧ (⟨30, 1, 1, .alwaysTaken⟩ : Cfg).indexBits + 2 * (⟨30, 1, 1, .alwaysTaken⟩ : Cfg).blockSizeWords ≤ 32 := by decide

/-! Witnesses of the cache: a two-way block of one set (V3), empty, half full and full. -/

/-- The configuration of V3. -/
def twoWay : Cfg := ⟨0, 1, 2, .alwaysNotTaken⟩
/-- V3 after step 1. -/
def halfFull : Instance := (freshInstance twoWay).withSets [(0, [⟨true, 0, 0⟩, ⟨false, 0, 0⟩])]
/-- V3 after step 3. -/
def full : Instance := (freshInstance twoWay).withSets [(0, [⟨true, 0, 0⟩, ⟨true, 1, 1⟩])]

theorem witness_LookupCountsAndTouchesOneSet : (run full).Running full := run_running _
/-- A hit in line 1, the line that is not the lowest. -/
theorem witness_LookupHitUpdatesAges :
    (run full).Running full ∧ setsCanonical full.cfg.associativity full.sets = true
    ∧ (full.set (full.cfg.index 0x4#32))[1]? = some ⟨true, 1, 1⟩ ∧ full.cfg.tag 0x4#32 = 1
    ∧ (∀ k m, k < 1 → (full.set (full.cfg.index 0x4#32))[k]? = some m → m.valid = true →
        m.tag ≠ full.cfg.tag 0x4#32) := by
  refine ⟨run_running _, by decide, by decide, by decide, fun k m hk hm _ => ?_⟩
  obtain rfl : k = 0 := by omega
  obtain rfl : (⟨true, 0, 0⟩ : Line) = m := by simpa [full, halfFull, Instance.set, readSet, twoWay, Cfg.index] using hm
  decide
/-- The second way of V3's set is empty after step 1. -/
theorem witness_LookupMissFillsFirstEmptyLine :
    (run halfFull).Running halfFull ∧ setsCanonical halfFull.cfg.associativity halfFull.sets = true
    ∧ (∀ l ∈ halfFull.set (halfFull.cfg.index 0x4#32), l.valid = true → l.tag ≠ halfFull.cfg.tag 0x4#32)
    ∧ (halfFull.set (halfFull.cfg.index 0x4#32))[1]? = some ⟨false, 0, 0⟩
    ∧ (∀ k m, k < 1 → (halfFull.set (halfFull.cfg.index 0x4#32))[k]? = some m → m.valid = true) := by
  refine ⟨run_running _, by decide, by decide, by decide, fun k m hk hm => ?_⟩
  obtain rfl : k = 0 := by omega
  obtain rfl : (⟨true, 0, 0⟩ : Line) = m := by simpa [halfFull, Instance.set, readSet, twoWay, Cfg.index] using hm
  decide
/-- V3 step 4: line 1 is the oldest of a full set. -/
theorem witness_LookupMissEvictsOldestLine :
    (run full).Running full ∧ setsCanonical full.cfg.associativity full.sets = true
    ∧ (∀ l ∈ full.set (full.cfg.index 0x8#32), l.valid = true ∧ l.tag ≠ full.cfg.tag 0x8#32)
    ∧ (full.set (full.cfg.index 0x8#32))[1]? = some ⟨true, 1, 1⟩
    ∧ (∀ l ∈ full.set (full.cfg.index 0x8#32), l.age ≤ (⟨true, 1, 1⟩ : Line).age)
    ∧ (∀ k m, k < 1 → (full.set (full.cfg.index 0x8#32))[k]? = some m → m.age < (⟨true, 1, 1⟩ : Line).age) := by
  refine ⟨run_running _, by decide, by decide, by decide, by decide, fun k m hk hm => ?_⟩
  obtain rfl : k = 0 := by omega
  obtain rfl : (⟨true, 0, 0⟩ : Line) = m := by simpa [full, Instance.set, readSet, twoWay, Cfg.index] using hm
  decide

/-- The invariants of a set, decided on its contents. -/
theorem setInv_of_decided (g : Cfg) (ls : CacheSet)
    (h : (ls.length = g.associativity ∧ (validLines ls).Pairwise (fun x y => x.tag ≠ y.tag)
        ∧ (validLines ls).Pairwise (fun x y => x.age ≠ y.age))
      ∧ (validLines ls ≠ [] → ∃ l ∈ validLines ls, l.age = 0)
      ∧ ls.Pairwise (fun x y => y.valid = true → x.valid = true)
      ∧ (∀ l ∈ ls, l.valid = false → l = freshLine) ∧ ∀ l ∈ ls, l.tag < 2 ^ g.tagBits) : SetInv g ls :=
  ⟨h.1.1, h.1.2.1, h.1.2.2, h.2.1, h.2.2.1, h.2.2.2.1, h.2.2.2.2⟩

theorem full_inv : full.Inv params where
  legal := by decide
  canonical := by decide
  indices := by decide
  set_inv := fun i => by
    rcases Nat.eq_zero_or_pos i with rfl | hi
    · exact setInv_of_decided _ _ (by decide)
    · rw [show full.set i = freshSet 2 by simp [full, Instance.set, readSet, twoWay, hi.ne]]
      exact setInv_of_decided _ _ (by decide)
  slots := by decide
  counters := ⟨by decide, by decide, by decide⟩

theorem halfFull_inv : halfFull.Inv params where
  legal := by decide
  canonical := by decide
  indices := by decide
  set_inv := fun i => by
    rcases Nat.eq_zero_or_pos i with rfl | hi
    · exact setInv_of_decided _ _ (by decide)
    · rw [show halfFull.set i = freshSet 2 by simp [halfFull, Instance.set, readSet, twoWay, hi.ne]]
      exact setInv_of_decided _ _ (by decide)
  slots := by decide
  counters := ⟨by decide, by decide, by decide⟩

theorem fresh_inv : (freshInstance cfg).Inv params where
  legal := by decide
  canonical := by decide
  indices := by decide
  set_inv := fun _ => setInv_of_decided _ (freshSet 1) (by decide)
  slots := by decide
  counters := ⟨by decide, by decide, by decide⟩

/-- With two lookups of other sets between. -/
theorem witness_SecondLookupHits :
    (run (freshInstance cfg)).Running (freshInstance cfg) ∧ (freshInstance cfg).Inv params
    ∧ ∀ a ∈ [0x4#32, 0x1C#32], cfg.index a ≠ cfg.index 0x0#32 := by
  refine ⟨run_running _, fresh_inv, fun a ha => ?_⟩
  simp only [List.mem_cons, List.not_mem_nil, or_false] at ha
  rcases ha with rfl | rfl <;> decide
/-- Another block of the same set, looked up before. -/
theorem witness_FirstLookupOfBlockMisses :
    Cfg.legal params cfg = true
    ∧ ∀ a ∈ [0x10#32], ¬(cfg.index a = cfg.index 0x0#32 ∧ cfg.tag a = cfg.tag 0x0#32) := by
  refine ⟨by decide, fun a ha => ?_⟩
  obtain rfl : a = 0x10#32 := by simpa using ha
  decide
/-- The set that grows and the set that does not. -/
theorem witness_OccupancyNeverShrinks :
    ((run halfFull).Running halfFull ∧ halfFull.Inv params) ∧ (run full).Running full ∧ full.Inv params :=
  ⟨⟨run_running _, halfFull_inv⟩, run_running _, full_inv⟩
/-- The full set of V3 after step 3, tag 0 the most recently used. -/
theorem witness_LookupRefinesLru :
    (run full).Running full ∧ full.Inv params ∧ RecencyOrder (full.set (full.cfg.index 0x8#32)) [0, 1] := by
  refine ⟨run_running _, full_inv, [⟨true, 0, 0⟩, ⟨true, 1, 1⟩], ?_, by decide, rfl⟩
  exact List.Perm.of_eq (by decide)

/-! Witnesses of the detector and of ADVANCE. -/

/-- V11 row 6 before the advance: a mispredicted branch and a load-use pair. -/
def twoStalls : Instance :=
  withSlots (r123 0x200#32) (.branch 0x108#32) (.rtype 0x104#32 (some 10) (some 8) (some 9))
    (.load 0x100#32 (some 8) (some 29)) e
/-- V10 row 6 before the advance. -/
def storeStall : Instance :=
  withSlots (.nop 0x10C#32) (.nop 0x108#32) (.rtype 0x104#32 (some 29) (some 1) (some 2))
    (.store 0x100#32 (some 8) (some 29)) e

/-- A mismatch, a match and no branch. -/
theorem witness_DetectComparesBranchWithPrediction :
    (twoStalls.bank.decode = .branch 0x108#32
      ∧ ¬(twoStalls.bank.fetch.addr ≠ 0x108#32 + 4#32 ↔ twoStalls.cfg.branchPrediction = .alwaysTaken))
    ∧ ((withSlots (r123 0x10C#32) (.branch 0x108#32) e e e).bank.decode = .branch 0x108#32
      ∧ ((withSlots (r123 0x10C#32) (.branch 0x108#32) e e e).bank.fetch.addr ≠ 0x108#32 + 4#32 ↔
          (withSlots (r123 0x10C#32) (.branch 0x108#32) e e e).cfg.branchPrediction = .alwaysTaken))
    ∧ storeStall.bank.decode = .nop 0x108#32 := by
  refine ⟨⟨rfl, by decide⟩, ⟨rfl, by decide⟩, rfl⟩
theorem witness_DetectAddsUnitForLoadUse :
    twoStalls.bank.mem = .load 0x100#32 (some 8) (some 29)
    ∧ (∃ ra rd s1 s2 r, twoStalls.bank.alu = .rtype ra rd s1 s2 ∧ some 8 = some r ∧ (s1 = some r ∨ s2 = some r))
    ∧ (withSlots e e (.rtype 0x104#32 (some 10) none none) (.load 0x100#32 (some 8) none) e).bank.mem
        = .load 0x100#32 (some 8) none :=
  ⟨rfl, ⟨_, _, _, _, 8, rfl, rfl, .inl rfl⟩, rfl⟩
theorem witness_DetectAddsUnitForStoreDependency :
    storeStall.bank.mem = .store 0x100#32 (some 8) (some 29)
    ∧ (∃ ra rd s1 s2 r, storeStall.bank.alu = .rtype ra rd s1 s2 ∧ some 29 = some r ∧ rd = some r)
    ∧ (withSlots e e (.rtype 0x104#32 (some 29) none none) (.store 0x100#32 (some 8) none) e).bank.mem
        = .store 0x100#32 (some 8) none :=
  ⟨rfl, ⟨_, _, _, _, 29, rfl, rfl, rfl⟩, rfl⟩
theorem witness_AdvanceWithQuietReplays :
    (run twoStalls).Running twoStalls ∧ (run twoStalls).params.replayRedetect = false := ⟨run_running _, rfl⟩
/-- Both policies. -/
theorem witness_BranchesAreEvaluatedAtMostOnce :
    (run twoStalls).Running twoStalls
    ∧ (State.Running ⟨redetecting, some twoStalls, none, [], none⟩ twoStalls)
    ∧ (⟨redetecting, some twoStalls, none, [], none⟩ : State).params.replayRedetect = true :=
  ⟨run_running _, ⟨rfl, rfl⟩, rfl⟩
theorem witness_AdvanceOnEmptyBankOnlyCountsCycle :
    (run full).Running full ∧ full.bank.slots = List.replicate 5 (Slot.nop 0#32) := ⟨run_running _, rfl⟩
/-- The commands that insert nothing, on a running block. -/
theorem witness_OnlyProcessInsertsInstructions :
    (run twoStalls).Running twoStalls
    ∧ (∃ addr, Instr.lookup 0xFFFFFFFF#32 = .lookup addr ∨ Instr.lookup 0xFFFFFFFF#32 = .fetchAccess addr) :=
  ⟨run_running _, _, .inl rfl⟩
/-- The lowest slot in WRITEBACK alone, and in FETCH. -/
theorem witness_FinalizeDrainsTheBank :
    (run (withSlots e e e e (r123 0x100#32))).Running (withSlots e e e e (r123 0x100#32))
    ∧ (run twoStalls).Running twoStalls := ⟨run_running _, run_running _⟩
/-- An empty and a nonempty bank. -/
theorem witness_FinalizeIsTheAdvanceLoop :
    ((run full).Running full ∧ full.bank.slots = List.replicate 5 (Slot.nop 0#32))
    ∧ (run twoStalls).Running twoStalls ∧ twoStalls.bank.slots ≠ List.replicate 5 (Slot.nop 0#32) :=
  ⟨⟨run_running _, rfl⟩, run_running _, by decide⟩

/-! Witnesses of PROCESS, FETCH_ACCESS and the whole machine. -/

theorem witness_ProcessWithoutOperandsInsertsSlot : (run twoStalls).Running twoStalls := run_running _
theorem witness_ProcessWithOperandsInsertsSlot : (run storeStall).Running storeStall := run_running _
theorem witness_ProcessWithoutMandatoryOperandIsParseError : (run twoStalls).Running twoStalls := run_running _
theorem witness_FetchAccessHitIsLookup :
    (run full).Running full ∧ ∃ l ∈ full.set (full.cfg.index 0x4#32), l.valid = true ∧ l.tag = full.cfg.tag 0x4#32 :=
  ⟨run_running _, by decide⟩
theorem witness_FetchAccessMissIsLookupAndBurn :
    (run full).Running full
    ∧ ∀ l ∈ full.set (full.cfg.index 0x8#32), l.valid = true → l.tag ≠ full.cfg.tag 0x8#32 :=
  ⟨run_running _, by decide⟩
theorem witness_MissOnEmptyBankCostsThePenalty :
    (run full).Running full ∧ full.bank.slots = List.replicate 5 (Slot.nop 0#32)
    ∧ ∀ l ∈ full.set (full.cfg.index 0x8#32), l.valid = true → l.tag ≠ full.cfg.tag 0x8#32 :=
  ⟨run_running _, rfl, by decide⟩
theorem witness_OnlyLookupAndFetchReachTheCache :
    (run full).Running full ∧ notConfigure .finalize = true ∧ Instr.finalize.mandatoryPresent = true
    ∧ (∀ addr, Instr.finalize ≠ .lookup addr ∧ Instr.finalize ≠ .fetchAccess addr) :=
  ⟨run_running _, rfl, rfl, fun _ => ⟨nofun, nofun⟩⟩
/-- A command that adds an instruction and one that does not. -/
theorem witness_InstructionsAreRetiredOnce :
    (run twoStalls).Running twoStalls ∧ notConfigure (.processBranch 0x4#32) = true
    ∧ (Instr.processBranch 0x4#32).mandatoryPresent = true ∧ insertsCounting (.processBranch 0x4#32) = true
    ∧ insertsCounting (.processBranch 0#32) = false := ⟨run_running _, rfl, rfl, by decide, by decide⟩
theorem witness_DrainIsComplete :
    Cfg.legal params cfg = true
    ∧ ∀ i ∈ [Instr.processBranch 0x4#32, .processNop 0#32, .fetchAccess 0x4#32],
        notConfigure i = true ∧ i.mandatoryPresent = true := by decide
/-- On a running block, and on a fatal one. -/
theorem witness_CountersOnlyGrow :
    (run full).inst = some full ∧ { run full with fatal := some .parseError }.inst = some full
    ∧ notConfigure .advance = true := ⟨rfl, rfl, rfl⟩
theorem witness_RatesAreExactOrZero :
    (⟨0, 0, 0, 5, 0, 0, 0⟩ : Counters).cacheAccess = 0 ∧ (⟨0, 0, 0, 5, 0, 0, 0⟩ : Counters).retiredCount = 0
    ∧ (⟨3, 1, 2, 5, 1, 0, 0⟩ : Counters).cacheAccess ≠ 0 ∧ (⟨3, 1, 2, 5, 1, 0, 0⟩ : Counters).retiredCount ≠ 0 := by
  decide
theorem witness_EmptyRunReportsZero : Cfg.legal params cfg = true := by decide
/-- A slot in flight, on a hit and on a miss. -/
theorem witness_TraceStepCostsThePenalty :
    (run full).Running full ∧ (r123 0x4#32).mandatoryPresent = true ∧ 1 ≤ (run full).params.missPenalty
    ∧ full.hits (r123 0x4#32).addr = true ∧ full.hits (r123 0x8#32).addr = false :=
  ⟨run_running _, rfl, by decide, by decide, by decide⟩
theorem witness_RunOfStallFreeTrace :
    Cfg.legal params cfg = true
    ∧ (∀ x ∈ [Slot.nop 0#32, .jump 0x104#32] ++ [Slot.syscall 0#32],
        x.kind = .nop ∨ x.kind = .jump ∨ x.kind = .syscall)
    ∧ Slot.syscall 0#32 ≠ .nop 0#32 := by decide
/-- A state with a resident block and an ill-formed word at its port. -/
theorem witness_StepKeepsInvariant :
    State.Inv { run full with pending := [0x7000000000000000#64] }
    ∧ ∃ t, step { run full with pending := [0x7000000000000000#64] } = .next t := by
  refine ⟨⟨by decide, fun c hc => ?_⟩, _, rfl⟩
  obtain rfl : full = c := by simpa [run] using hc
  exact full_inv

end Sys2Proof.Tests
end

/-! PROOF. Which commands reach the cache (20_memory.md R61): everything built on ADVANCE alone leaves the configuration,
the sets and the cache counters as they were, so FETCH_ACCESS reaches the cache by its lookup only and the PROCESS
commands, ADVANCE and FINALIZE do not reach it at all. -/

namespace Sys2Proof.Machine

/-! What is left unchanged. -/

/-- The cache of `d`, with its configuration and its three counters, is the one of `c`. -/
def Instance.SameCache (c d : Instance) : Prop :=
  d.cfg = c.cfg ∧ d.sets = c.sets ∧ d.ctr.cacheAccess = c.ctr.cacheAccess
    ∧ d.ctr.cacheHit = c.ctr.cacheHit ∧ d.ctr.cacheMiss = c.ctr.cacheMiss

theorem Instance.SameCache.refl (c : Instance) : c.SameCache c := ⟨rfl, rfl, rfl, rfl, rfl⟩

/-- ADVANCE, with all its replays, keeps the cache: a body counts retirements, branches and cycles, and moves slots. -/
theorem Instance.SameCache.advance {c d : Instance} (h : c.SameCache d) (p : Params) : c.SameCache (d.advance p) :=
  Instance.advance_induction (P := c.SameCache) (quiet := fun _ hx => hx) (detecting := fun _ hx => hx) p h

/-- FINALIZE keeps the cache. -/
theorem Instance.sameCache_finalize (p : Params) (c : Instance) : c.SameCache (c.finalize p) :=
  Instance.finalize_induction (P := c.SameCache) (fun _ h => h.advance p) (.refl c)

/-- A PROCESS command keeps the cache: after its ADVANCE it writes the bank only. -/
theorem Instance.sameCache_process (p : Params) (x : Slot) (c : Instance) : c.SameCache (c.process p x) :=
  (Instance.SameCache.refl c).advance p

/-- FETCH_ACCESS leaves the cache as its lookup leaves it: the burn keeps it. -/
theorem Instance.sameCache_fetchAccess (p : Params) (addr : Addr) (c : Instance) :
    (c.lookup addr).SameCache (c.fetchAccess p addr) :=
  Instance.fetchAccess_induction (P := (c.lookup addr).SameCache) (fun _ h => h.advance p) (.refl _)

/-! What each command does on a running block. -/

section
variable {s : State} {c : Instance}

/-- The next state of a command that acts by `f` on `c`. -/
theorem State.Running.next_onInstance (h : s.Running c) (f : Instance → Instance × Response) :
    (.next (s.onInstance f) : Host.Outcome State Fault Refusal)
      = .next { s with inst := some (f c).1, response := some (f c).2 } := by
  obtain ⟨hfatal, hinst⟩ := h
  rw [State.onInstance_of_running f hfatal hinst]

theorem exec_lookup_of_running (h : s.Running c) (addr : Addr) :
    exec (.lookup addr) s
      = .next { s with inst := some (c.lookup addr), response := some (lookupAnswer (c.hits addr)) } :=
  h.next_onInstance _

theorem exec_fetchAccess_of_running (h : s.Running c) (addr : Addr) :
    exec (.fetchAccess addr) s
      = .next { s with
          inst := some (c.fetchAccess s.params addr), response := some (lookupAnswer (c.hits addr)) } :=
  h.next_onInstance _

theorem exec_advance_of_running (h : s.Running c) :
    exec .advance s = .next { s with inst := some (c.advance s.params), response := some .done } :=
  h.next_onInstance _

theorem exec_finalize_of_running (h : s.Running c) :
    exec .finalize s = .next { s with inst := some (c.finalize s.params), response := some .done } :=
  h.next_onInstance _

/-- The seven PROCESS commands have one meaning, a function of the slot they write. -/
theorem exec_processCommand (x : Slot) (s : State) : exec x.processCommand s = .next (s.process x) := by
  cases x <;> rfl

theorem exec_processCommand_of_running (h : s.Running c) {x : Slot} (hx : x.mandatoryPresent = true) :
    exec x.processCommand s
      = .next { s with inst := some (c.process s.params x), response := some .done } := by
  rw [exec_processCommand, State.process_of_present hx, h.next_onInstance]

end

/-! The commands that do not reach the cache. -/

/-- A command that neither configures nor looks up is a PROCESS command, ADVANCE or FINALIZE. -/
theorem Instr.process_or_advance_or_finalize {i : Instr} (hconf : notConfigure i = true)
    (hpresent : i.mandatoryPresent = true) (hlookup : ∀ addr, i ≠ .lookup addr ∧ i ≠ .fetchAccess addr) :
    (∃ x : Slot, x.mandatoryPresent = true ∧ i = x.processCommand) ∨ i = .advance ∨ i = .finalize := by
  cases i with
  | processNop addr => exact .inl ⟨.nop addr, rfl, rfl⟩
  | processRtype addr dest src1 src2 => exact .inl ⟨.rtype addr dest src1 src2, hpresent, rfl⟩
  | processLoad addr dest base => exact .inl ⟨.load addr dest base, hpresent, rfl⟩
  | processStore addr src base => exact .inl ⟨.store addr src base, hpresent, rfl⟩
  | processBranch addr => exact .inl ⟨.branch addr, rfl, rfl⟩
  | processJump addr => exact .inl ⟨.jump addr, rfl, rfl⟩
  | processSyscall addr => exact .inl ⟨.syscall addr, rfl, rfl⟩
  | lookup addr => exact absurd rfl (hlookup addr).1
  | advance => exact .inr (.inl rfl)
  | fetchAccess addr => exact absurd rfl (hlookup addr).2
  | finalize => exact .inr (.inr rfl)
  | configure ib bsw assoc pred => exact absurd hconf Bool.false_ne_true

/-- On a running block such a command answers a next state with the same cache. -/
theorem exec_keeps_cache {s : State} {c : Instance} (h : s.Running c) {i : Instr} (hconf : notConfigure i = true)
    (hpresent : i.mandatoryPresent = true) (hlookup : ∀ addr, i ≠ .lookup addr ∧ i ≠ .fetchAccess addr) :
    ∃ c' r, exec i s = .next { s with inst := some c', response := some r } ∧ c.SameCache c' := by
  obtain ⟨x, hx, rfl⟩ | rfl | rfl := Instr.process_or_advance_or_finalize hconf hpresent hlookup
  · exact ⟨_, _, exec_processCommand_of_running h hx, c.sameCache_process s.params x⟩
  · exact ⟨_, _, exec_advance_of_running h, (Instance.SameCache.refl c).advance s.params⟩
  · exact ⟨_, _, exec_finalize_of_running h, c.sameCache_finalize s.params⟩

/-- Settles O46: FETCH_ACCESS has the cache of its one lookup, and what is built on ADVANCE alone keeps the cache. -/
theorem onlyLookupAndFetchReachTheCache : Obligations.OnlyLookupAndFetchReachTheCache := by
  intro s c h
  constructor
  · intro addr
    obtain ⟨-, hsets, hacc, hhit, hmiss⟩ := c.sameCache_fetchAccess s.params addr
    exact ⟨_, _, _, _, exec_lookup_of_running h addr, exec_fetchAccess_of_running h addr,
      rfl, hsets.symm, rfl, hacc, hhit.symm, hmiss.symm⟩
  · intro i hconf hpresent hlookup
    exact exec_keeps_cache h hconf hpresent hlookup

end Sys2Proof.Machine

/-! PROOF. The worked encodings (30_encoding.md R105). Every row is closed, so it is settled by evaluating the encoder on
the command and the decoder on the word, and an ill-formed word by the condition of R93 that it breaks. -/

namespace Sys2Proof

/-- A word rejected for a reason is the word of no command. -/
theorem decode_ne_ok_of_error {w : CommandWord} (e : DecodeError) (h : decode w = .error e) (i : Instr) :
    decode w ≠ .ok i := by
  simp [h]

/-- Settles O5, row by row, in the order of R105 and grouped by the formats of R82. -/
theorem workedEncodingsDecode : Obligations.WorkedEncodingsDecode := by
  unfold Obligations.WorkedEncodingsDecode
  simp only [List.forall_mem_cons]
  constructor
  case left =>
    exact ⟨
      -- P3: PROCESS_RTYPE with all its operands, and with `dest` alone
      ⟨rfl, rfl⟩, ⟨rfl, rfl⟩,
      -- P2: PROCESS_LOAD with and without `base`, PROCESS_STORE
      ⟨rfl, rfl⟩, ⟨rfl, rfl⟩, ⟨rfl, rfl⟩,
      -- P0: PROCESS_BRANCH, PROCESS_JUMP, PROCESS_SYSCALL, PROCESS_NOP
      ⟨rfl, rfl⟩, ⟨rfl, rfl⟩, ⟨rfl, rfl⟩, ⟨rfl, rfl⟩,
      -- A and Z in turn: LOOKUP, ADVANCE, FETCH_ACCESS, FINALIZE
      ⟨rfl, rfl⟩, ⟨rfl, rfl⟩, ⟨rfl, rfl⟩, ⟨rfl, rfl⟩,
      -- C: CONFIGURE with each of the two predictions
      ⟨rfl, rfl⟩, ⟨rfl, rfl⟩,
      List.forall_mem_nil _⟩
  case right =>
    exact ⟨
      decode_ne_ok_of_error .reservedOp rfl,
      decode_ne_ok_of_error .mustBeZero rfl,
      decode_ne_ok_of_error .absentIndexNonzero rfl,
      decode_ne_ok_of_error .mandatoryAbsent rfl,
      decode_ne_ok_of_error .mustBeZero rfl,
      List.forall_mem_nil _⟩

end Sys2Proof

/-! PROOF. The address decoder and the lookup (40_cache.md R110 to R121): index and tag are quotients and remainders of
the address, so they recombine with the offset; and a LOOKUP is its counts and one lookup in the set it selects. -/

namespace Sys2Proof.Machine

/-! The address decoder as arithmetic. -/

/-- The index of R111 as a remainder: the mask keeps the low `index_bits` bits of the block number. -/
theorem Cfg.index_eq_div_mod (g : Cfg) (addr : Addr) :
    g.index addr = addr.toNat / 2 ^ (2 * g.blockSizeWords) % 2 ^ g.indexBits := by
  rw [Cfg.index, Nat.and_two_pow_sub_one_eq_mod, Nat.shiftRight_eq_div_pow, Cfg.blockOffsetBits]

/-- The tag of R112 as a quotient. -/
theorem Cfg.tag_eq_div (g : Cfg) (addr : Addr) :
    g.tag addr = addr.toNat / 2 ^ (g.indexBits + 2 * g.blockSizeWords) := by
  rw [Cfg.tag, Nat.shiftRight_eq_div_pow, Cfg.blockOffsetBits]

/-- The tag is what the index leaves of the block number. -/
theorem Cfg.tag_eq_div_div (g : Cfg) (addr : Addr) :
    g.tag addr = addr.toNat / 2 ^ (2 * g.blockSizeWords) / 2 ^ g.indexBits := by
  rw [g.tag_eq_div, Nat.div_div_eq_div_mul, ← pow_add, Nat.add_comm g.indexBits]

theorem Cfg.index_lt (g : Cfg) (addr : Addr) : g.index addr < 2 ^ g.indexBits := by
  rw [g.index_eq_div_mod]
  exact Nat.mod_lt _ (by positivity)

/-- A tag has `tag_bits` bits, where index and offset fit in the address. -/
theorem Cfg.tag_lt {g : Cfg} (hfit : g.indexBits + 2 * g.blockSizeWords ≤ 32) (addr : Addr) :
    g.tag addr < 2 ^ (32 - g.indexBits - 2 * g.blockSizeWords) := by
  rw [g.tag_eq_div, Nat.div_lt_iff_lt_mul (by positivity), ← pow_add, Nat.sub_sub, Nat.sub_add_cancel hfit]
  exact addr.isLt

/-- The three fields recombine, by division with remainder twice: the offset off the address, then the index off the
block number. -/
theorem Cfg.toNat_eq_tag_index_offset (g : Cfg) (addr : Addr) :
    addr.toNat = g.tag addr * 2 ^ (g.indexBits + 2 * g.blockSizeWords) + g.index addr * 2 ^ (2 * g.blockSizeWords)
      + addr.toNat % 2 ^ (2 * g.blockSizeWords) := by
  have hblock : addr.toNat / 2 ^ (2 * g.blockSizeWords) = g.tag addr * 2 ^ g.indexBits + g.index addr := by
    rw [g.tag_eq_div_div, g.index_eq_div_mod, Nat.div_add_mod']
  calc addr.toNat
      = addr.toNat / 2 ^ (2 * g.blockSizeWords) * 2 ^ (2 * g.blockSizeWords)
          + addr.toNat % 2 ^ (2 * g.blockSizeWords) := (Nat.div_add_mod' ..).symm
    _ = _ := by rw [hblock, pow_add]; ring

/-- Settles O17. -/
theorem decoderPartitionsAddress : Obligations.DecoderPartitionsAddress := fun g addr hfit =>
  ⟨g.toNat_eq_tag_index_offset addr, g.index_lt addr, Cfg.tag_lt hfit addr⟩

/-! The counts of a LOOKUP. -/

/-- R114, R116 and R117 in one: the access, and exactly one of hit and miss. -/
theorem Counters.countLookup_eq_ite (k : Counters) (hit : Bool) :
    k.countLookup hit = { k with
      cacheAccess := k.cacheAccess + 1
      cacheHit := k.cacheHit + (if hit then 1 else 0)
      cacheMiss := k.cacheMiss + (if hit then 0 else 1) } := by
  cases hit <;> rfl

/-- LOOKUP's frame: it writes the sets and the counters. -/
theorem Instance.lookup_eq (c : Instance) (addr : Addr) :
    c.lookup addr = { c with sets := (c.lookup addr).sets, ctr := c.ctr.countLookup (c.hits addr) } := rfl

/-- Settles O19. -/
theorem lookupCountsAndTouchesOneSet : Obligations.LookupCountsAndTouchesOneSet := by
  intro s c addr hrun
  refine ⟨(c.lookup addr).sets, c.hits addr, ?completes, c.hits_iff addr, ?otherSets⟩
  case completes =>
    rw [← Counters.countLookup_eq_ite, ← Instance.lookup_eq]
    exact exec_lookup_of_running hrun addr
  case otherSets =>
    exact fun j hj => c.set_lookup_other hj

/-! A hit. -/

/-- The hit test finds the lowest valid line with the tag (R115). -/
theorem findHit_of_lowest {t w : Nat} {ls : CacheSet} {l : Line} (hw : ls[w]? = some l) (hvalid : l.valid = true)
    (htag : l.tag = t) (hlowest : ∀ k m, k < w → ls[k]? = some m → m.valid = true → m.tag ≠ t) :
    findHit t ls = some w := by
  obtain ⟨hlt, rfl⟩ := List.getElem?_eq_some_iff.mp hw
  refine List.findIdx?_eq_some_iff_getElem.mpr ⟨hlt, by simp [hvalid, htag], fun k hk => ?_⟩
  have hne := hlowest k _ hk (List.getElem?_eq_getElem (hk.trans hlt))
  simpa using hne

/-- A lookup that finds a line only makes it the most recently used (R116). -/
theorem lookupSet_of_findHit {t w : Nat} {ls : CacheSet} (h : findHit t ls = some w) :
    lookupSet t ls = (refresh w ls, true) := by
  simp [lookupSet, h]

/-- R120 on one line. -/
theorem refresh_getElem?_of_some {w k : Nat} {ls : CacheSet} {m : Line} (h : ls[k]? = some m) :
    (refresh w ls)[k]? = some
      (if k = w then { m with age := 0 } else if m.valid then { m with age := m.age + 1 } else m) := by
  simp [refresh_getElem?, h, ageLine]

/-- Settles O20: the selected set after the LOOKUP is the recency update of the set before it, at the lowest match. -/
theorem lookupHitUpdatesAges : Obligations.LookupHitUpdatesAges := by
  intro s c addr w l hrun hcanonical hw hvalid htag hlowest
  have hlookup : lookupSet (c.cfg.tag addr) (c.set (c.cfg.index addr))
      = (refresh w (c.set (c.cfg.index addr)), true) :=
    lookupSet_of_findHit (findHit_of_lowest hw hvalid htag hlowest)
  have hhits : c.hits addr = true := by rw [Instance.hits, hlookup]
  have hset : (c.lookup addr).set (c.cfg.index addr) = refresh w (c.set (c.cfg.index addr)) := by
    rw [Instance.set_lookup_same hcanonical, hlookup]
  refine ⟨c.lookup addr, ?completes, ?counts, ?length, ?lines⟩
  case completes =>
    rw [exec_lookup_of_running hrun, hhits]
    rfl
  case counts =>
    rw [Instance.lookup_ctr, hhits]
    rfl
  case length =>
    rw [hset, refresh_length]
  case lines =>
    intro k m hk
    rw [hset, refresh_getElem?_of_some hk]

end Sys2Proof.Machine

/-! PROOF. The hazard and stall detector (41_hazard_detector.md): each of its three checks as a statement about the slots
it reads, and the stall count with the slot of a check replaced by a bubble, which takes away that check's unit. -/

namespace Sys2Proof.Machine

/-! The three checks. -/

/-- R33: only two present operands are equal. -/
theorem regEq_iff {x y : RegOp} : regEq x y = true ↔ ∃ r, x = some r ∧ y = some r := by
  cases x with
  | none => simp [regEq]
  | some p =>
    cases y with
    | none => simp [regEq]
    | some q => simpa [regEq] using eq_comm

/-- R140: BRANCH is the only kind that fires the branch check. -/
theorem branchInDecode_iff {b : Bank} : branchInDecode b = true ↔ ∃ addr, b.decode = .branch addr := by
  rw [branchInDecode, beq_iff_eq]
  cases b.decode with
  | branch addr => exact iff_of_true rfl ⟨addr, rfl⟩
  | nop | rtype | load | store | jump | syscall => simp [Slot.kind]

/-- R142, with the outcome as R141 classifies it. -/
theorem branchPredicted_iff {p : Prediction} {b : Bank} {addr : Addr} (h : b.decode = .branch addr) :
    branchPredicted p b = true ↔ (b.fetch.addr ≠ addr + 4#32 ↔ p = .alwaysTaken) := by
  have haddr : b.decode.addr = addr := by rw [h, Slot.addr]
  rw [branchPredicted, branchTaken, beq_iff_eq, Bool.eq_iff_iff, bne_iff_ne, beq_iff_eq, haddr]

/-- R144 for a LOAD in MEM. -/
theorem loadUse_iff {b : Bank} {la : Addr} {dest base : RegOp} (h : b.mem = .load la dest base) :
    loadUse b = true ↔
      ∃ ra rd s1 s2 r, b.alu = .rtype ra rd s1 s2 ∧ dest = some r ∧ (s1 = some r ∨ s2 = some r) := by
  unfold loadUse
  rw [h]
  cases b.alu with
  | rtype ra rd s1 s2 =>
    simp only [Bool.or_eq_true, regEq_iff, Slot.rtype.injEq]
    constructor
    · rintro (⟨r, hs, hd⟩ | ⟨r, hs, hd⟩)
      · exact ⟨ra, rd, s1, s2, r, ⟨rfl, rfl, rfl, rfl⟩, hd, .inl hs⟩
      · exact ⟨ra, rd, s1, s2, r, ⟨rfl, rfl, rfl, rfl⟩, hd, .inr hs⟩
    · rintro ⟨_, _, _, _, r, ⟨rfl, rfl, rfl, rfl⟩, hd, hs | hs⟩
      · exact .inl ⟨r, hs, hd⟩
      · exact .inr ⟨r, hs, hd⟩
  | nop | load | store | branch | jump | syscall => simp

/-- R146 for a STORE in MEM. -/
theorem storeDependency_iff {b : Bank} {sa : Addr} {src base : RegOp} (h : b.mem = .store sa src base) :
    storeDependency b = true ↔
      ∃ ra rd s1 s2 r, b.alu = .rtype ra rd s1 s2 ∧ base = some r ∧ rd = some r := by
  unfold storeDependency
  rw [h]
  cases b.alu with
  | rtype ra rd s1 s2 =>
    simp only [regEq_iff, Slot.rtype.injEq]
    constructor
    · rintro ⟨r, hd, hb⟩
      exact ⟨ra, rd, s1, s2, r, ⟨rfl, rfl, rfl, rfl⟩, hb, hd⟩
    · rintro ⟨_, _, _, _, r, ⟨rfl, rfl, rfl, rfl⟩, hb, hd⟩
      exact ⟨r, hd, hb⟩
  | nop | load | store | branch | jump | syscall => simp

/-- `bank[MEM]` holds one kind: the checks of R144 and R146 exclude each other (R148). -/
theorem storeDependency_of_load {b : Bank} {la : Addr} {dest base : RegOp} (h : b.mem = .load la dest base) :
    storeDependency b = false := by
  rw [storeDependency, h]

theorem loadUse_of_store {b : Bank} {sa : Addr} {src base : RegOp} (h : b.mem = .store sa src base) :
    loadUse b = false := by
  rw [loadUse, h]

/-! The stall count with a bubble in the slot that a check needs. -/

/-- Without the slot in DECODE the branch check adds nothing, and the other two stand (R148). -/
theorem stallCount_eq_bubbleInDecode_add (p : Prediction) (b : Bank) :
    stallCount p b = stallCount p { b with decode := .nop 0#32 }
      + (branchInDecode b && !branchPredicted p b).toNat := by
  have hbubble : stallCount p { b with decode := .nop 0#32 }
      = 0 + (loadUse b).toNat + (storeDependency b).toNat := rfl
  rw [hbubble, stallCount]
  omega

/-- Without the slot in MEM the two register checks add nothing, and the branch check stands (R148). -/
theorem stallCount_eq_bubbleInMem_add (p : Prediction) (b : Bank) :
    stallCount p b = stallCount p { b with mem := .nop 0#32 }
      + (loadUse b).toNat + (storeDependency b).toNat := rfl

/-- A LOAD in MEM costs its load-use unit. -/
theorem stallCount_of_load {b : Bank} {la : Addr} {dest base : RegOp} (p : Prediction)
    (h : b.mem = .load la dest base) :
    stallCount p b = stallCount p { b with mem := .nop 0#32 } + (loadUse b).toNat := by
  rw [stallCount_eq_bubbleInMem_add, storeDependency_of_load h, Bool.toNat_false, Nat.add_zero]

/-- A STORE in MEM costs its store-dependency unit. -/
theorem stallCount_of_store {b : Bank} {sa : Addr} {src base : RegOp} (p : Prediction)
    (h : b.mem = .store sa src base) :
    stallCount p b = stallCount p { b with mem := .nop 0#32 } + (storeDependency b).toNat := by
  rw [stallCount_eq_bubbleInMem_add, loadUse_of_store h, Bool.toNat_false, Nat.add_zero]

/-! What DETECT writes and answers. -/

/-- Without a BRANCH in DECODE no counter moves (R140). -/
theorem Counters.countBranch_of_noBranch {b : Bank} (k : Counters) (p : Prediction)
    (h : branchInDecode b = false) : k.countBranch p b = k := by
  simp [Counters.countBranch, h]

/-- Settles O31: the two counters are those after the branch check. -/
theorem detectWritesOnlyBranchCounters : Obligations.DetectWritesOnlyBranchCounters := fun c =>
  ⟨c.detect.2.ctr.branchCount, c.detect.2.ctr.correctBranchCount, rfl⟩

/-- Settles O27: whether the check fires, and whether the prediction holds, decides both counters and the unit that a
bubble in DECODE takes away. -/
theorem detectComparesBranchWithPrediction : Obligations.DetectComparesBranchWithPrediction := by
  intro c
  have hstall := stallCount_eq_bubbleInDecode_add c.cfg.branchPrediction c.bank
  refine ⟨fun addr hbranch => ?branch, fun hother => ?noBranch, c.detect_bank⟩
  case branch =>
    have hfires : branchInDecode c.bank = true := branchInDecode_iff.mpr ⟨addr, hbranch⟩
    refine ⟨by simp [hfires], fun hmatch => ?predicted, fun hmismatch => ?mispredicted⟩
    case predicted =>
      have hpred := (branchPredicted_iff hbranch).mpr hmatch
      simp [hstall, hfires, hpred]
    case mispredicted =>
      have hpred := Bool.eq_false_of_not_eq_true (mt (branchPredicted_iff hbranch).mp hmismatch)
      simp [hstall, hfires, hpred]
  case noBranch =>
    have hsilent : branchInDecode c.bank = false :=
      Bool.eq_false_of_not_eq_true fun hfires =>
        have ⟨addr, hbranch⟩ := branchInDecode_iff.mp hfires
        hother addr hbranch
    simp [hstall, hsilent, Counters.countBranch_of_noBranch]

/-- Settles O28. -/
theorem detectAddsUnitForLoadUse : Obligations.DetectAddsUnitForLoadUse := by
  intro p b la dest base hload
  rw [stallCount_of_load p hload]
  constructor
  case left =>
    intro hdep
    rw [(loadUse_iff hload).mpr hdep, Bool.toNat_true]
  case right =>
    intro hfree
    have hnone : loadUse b = false := Bool.eq_false_of_not_eq_true fun huse => by
      obtain ⟨ra, rd, s1, s2, r, halu, hdest, hsrc⟩ := (loadUse_iff hload).mp huse
      obtain ⟨hs1, hs2⟩ := hfree ra rd s1 s2 r halu hdest
      exact hsrc.elim hs1 hs2
    rw [hnone, Bool.toNat_false, Nat.add_zero]

/-- Settles O29. -/
theorem detectAddsUnitForStoreDependency : Obligations.DetectAddsUnitForStoreDependency := by
  intro p b sa src base hstore
  rw [stallCount_of_store p hstore]
  constructor
  case left =>
    intro hdep
    rw [(storeDependency_iff hstore).mpr hdep, Bool.toNat_true]
  case right =>
    intro hfree
    have hnone : storeDependency b = false := Bool.eq_false_of_not_eq_true fun huse => by
      obtain ⟨ra, rd, s1, s2, r, halu, hbase, hdest⟩ := (storeDependency_iff hstore).mp huse
      exact hfree ra rd s1 s2 r halu hbase hdest
    rw [hnone, Bool.toNat_false, Nat.add_zero]

end Sys2Proof.Machine

/-! PROOF. Drain completeness (42_pipeline_driver.md R172): retired instructions and those in flight are conserved, but
for the one a PROCESS command puts in; and FINALIZE leaves nothing in flight. -/

namespace Sys2Proof.Machine

/-! What is in flight. -/

/-- The slots in flight are those that count at retirement, stage by stage (R161). -/
theorem Bank.inFlight_eq (b : Bank) :
    b.inFlight = b.fetch.counts.toNat + b.decode.counts.toNat + b.alu.counts.toNat + b.mem.counts.toNat
      + b.writeback.counts.toNat := by
  have hcounts : (fun x : Slot => decide (x.addr ≠ 0#32)) = Slot.counts := by
    funext x
    simp [Slot.counts, bne, beq_eq_decide]
  simp only [Bank.inFlight, Bank.slots, hcounts, List.countP_cons, List.countP_nil, Bool.toNat,
    Bool.cond_eq_ite]
  omega

/-- A shift takes the slot in WRITEBACK out of the bank and puts none in (R165). -/
theorem Bank.inFlight_shift (b : Bank) : b.shift.inFlight + b.writeback.counts.toNat = b.inFlight := by
  have hempty : Slot.empty.counts.toNat = 0 := rfl
  simp only [Bank.inFlight_eq, Bank.shift_fetch, Bank.shift_decode, Bank.shift_alu, Bank.shift_mem,
    Bank.shift_writeback, hempty]
  omega

/-- An insertion into an EMPTY FETCH adds the new slot (R190). -/
theorem Bank.inFlight_insert {b : Bank} (h : b.fetch = Slot.empty) (x : Slot) :
    (b.insert x).inFlight = b.inFlight + x.counts.toNat := by
  have hempty : Slot.empty.counts.toNat = 0 := rfl
  simp only [Bank.inFlight_eq, Bank.insert_fetch, Bank.insert_decode, Bank.insert_alu, Bank.insert_mem,
    Bank.insert_writeback, h, hempty]
  omega

@[simp] theorem Bank.inFlight_empty : Bank.empty.inFlight = 0 := rfl

/-! The conserved sum. -/

/-- The instructions issued to the pipeline: those that have retired and those still in it. -/
def Instance.issued (c : Instance) : Nat := c.ctr.retiredCount + c.bank.inFlight

@[simp] theorem Instance.issued_freshInstance (g : Cfg) : (freshInstance g).issued = 0 := rfl

@[simp] theorem Instance.issued_lookup (c : Instance) (addr : Addr) : (c.lookup addr).issued = c.issued := rfl

/-- The slot a body takes out of WRITEBACK is the one it counts (R160, R161). -/
theorem Instance.issued_retire_tickAndShift (c : Instance) : c.retire.tickAndShift.issued = c.issued := by
  have hshift := c.bank.inFlight_shift
  simp only [Instance.issued, Instance.tickAndShift_ctr, Instance.tickAndShift_bank, Instance.retire_ctr,
    Instance.retire_bank, Counters.countCycle_retiredCount, Counters.countRetirement_retiredCount]
  omega

/-- DETECT writes no slot and no retirement, so the detecting body conserves what the quiet one does (R149). -/
theorem Instance.issued_retire_detect_tickAndShift (c : Instance) :
    c.retire.detect.2.tickAndShift.issued = c.issued :=
  c.issued_retire_tickAndShift

@[simp] theorem Instance.issued_advance (p : Params) (c : Instance) : (c.advance p).issued = c.issued :=
  Instance.advance_induction (P := fun d => d.issued = c.issued)
    (quiet := fun d h => d.issued_retire_tickAndShift.trans h)
    (detecting := fun d h => d.issued_retire_detect_tickAndShift.trans h) p rfl

@[simp] theorem Instance.issued_finalize (p : Params) (c : Instance) : (c.finalize p).issued = c.issued :=
  Instance.finalize_induction (P := fun d => d.issued = c.issued) (fun d h => (d.issued_advance p).trans h) rfl

@[simp] theorem Instance.issued_fetchAccess (p : Params) (addr : Addr) (c : Instance) :
    (c.fetchAccess p addr).issued = c.issued :=
  Instance.fetchAccess_induction (P := fun d => d.issued = c.issued) (fun d h => (d.issued_advance p).trans h)
    (c.issued_lookup addr)

/-- A PROCESS command writes into the FETCH its ADVANCE has cleared, so it overwrites no instruction (R190). -/
theorem Instance.issued_process (p : Params) (x : Slot) (c : Instance) :
    (c.process p x).issued = c.issued + x.counts.toNat := by
  have hadvance := c.issued_advance p
  simp only [Instance.issued, Instance.process_ctr, Instance.process_bank,
    Bank.inFlight_insert (c.advance_fetch p)] at hadvance ⊢
  omega

/-! The conserved sum along commands. -/

/-- A command that completes leaves the block running, on what it gives. -/
theorem State.Running.completed {s : State} {c : Instance} (h : s.Running c) (c' : Instance) (r : Response) :
    State.Running { s with inst := some c', response := some r } c' := by
  obtain ⟨hfatal, -⟩ := h
  exact ⟨hfatal, rfl⟩

/-- A PROCESS command counts exactly when its slot does. -/
theorem insertsCounting_processCommand (x : Slot) : insertsCounting x.processCommand = x.counts := by
  cases x <;> rfl

/-- On a running block a command other than CONFIGURE issues one instruction or none. -/
theorem exec_issued {s : State} {c : Instance} (h : s.Running c) {i : Instr} (hconf : notConfigure i = true)
    (hpresent : i.mandatoryPresent = true) :
    ∃ c' r, exec i s = .next { s with inst := some c', response := some r }
      ∧ c'.issued = c.issued + (if insertsCounting i then 1 else 0) := by
  by_cases hlookup : ∃ addr, i = .lookup addr ∨ i = .fetchAccess addr
  · obtain ⟨addr, rfl | rfl⟩ := hlookup
    · exact ⟨_, _, exec_lookup_of_running h addr, c.issued_lookup addr⟩
    · exact ⟨_, _, exec_fetchAccess_of_running h addr, c.issued_fetchAccess s.params addr⟩
  · have hother : ∀ addr, i ≠ .lookup addr ∧ i ≠ .fetchAccess addr := by simpa using hlookup
    obtain ⟨x, hx, rfl⟩ | rfl | rfl := Instr.process_or_advance_or_finalize hconf hpresent hother
    · refine ⟨_, _, exec_processCommand_of_running h hx, ?_⟩
      rw [c.issued_process, insertsCounting_processCommand, Bool.toNat, Bool.cond_eq_ite]
    · exact ⟨_, _, exec_advance_of_running h, c.issued_advance s.params⟩
    · exact ⟨_, _, exec_finalize_of_running h, c.issued_finalize s.params⟩

theorem execAll_cons_of_next {i : Instr} {s t : State} (h : exec i s = .next t) (rest : List Instr) :
    execAll (i :: rest) s = execAll rest t := by
  rw [execAll, h]

theorem execAll_append_of_next {is : List Instr} {s t : State} (h : execAll is s = .next t) (js : List Instr) :
    execAll (is ++ js) s = execAll js t := by
  induction is generalizing s with
  | nil =>
    obtain rfl : s = t := by simpa [execAll] using h
    rfl
  | cons i rest ih =>
    obtain ⟨s', hs'⟩ := exec_next i s
    rw [execAll_cons_of_next hs'] at h
    rw [List.cons_append, execAll_cons_of_next hs', ih h]

/-- A running block runs through any commands but CONFIGURE, and they issue one instruction for each counting PROCESS
command among them. -/
theorem execAll_issued {is : List Instr} (his : ∀ i ∈ is, notConfigure i = true ∧ i.mandatoryPresent = true)
    {s : State} {c : Instance} (h : s.Running c) :
    ∃ t c', execAll is s = .next t ∧ t.Running c' ∧ c'.issued = c.issued + is.countP insertsCounting := by
  induction is generalizing s c with
  | nil => exact ⟨s, c, rfl, h, rfl⟩
  | cons i rest ih =>
    obtain ⟨⟨hconf, hpresent⟩, hrest⟩ := List.forall_mem_cons.mp his
    obtain ⟨c₁, r, hexec, hissued₁⟩ := exec_issued h hconf hpresent
    obtain ⟨t, c', hrun, hrunning, hissued⟩ := ih hrest (h.completed c₁ r)
    refine ⟨t, c', by rw [execAll_cons_of_next hexec, hrun], hrunning, ?_⟩
    rw [hissued, hissued₁, List.countP_cons]
    omega

/-! The drain. -/

/-- Every stage before stage number `k` holds EMPTY: with `k` at most the `p` of R171. -/
def Bank.EmptyBelow (b : Bank) (k : Nat) : Prop := ∀ stage : Stage, stage.number < k → b.at stage = Slot.empty

theorem Bank.EmptyBelow.mono {b : Bank} {j k : Nat} (h : b.EmptyBelow k) (hjk : j ≤ k) : b.EmptyBelow j :=
  fun stage hstage => h stage (by omega)

/-- All five stages are below 5. -/
theorem Bank.EmptyBelow.eq_empty {b : Bank} (h : b.EmptyBelow Config.stages) : b = Bank.empty := by
  have hslots : b.slots = Bank.empty.slots := by
    rw [Bank.slots, show b.fetch = Slot.empty from h .fetch (by decide),
      show b.decode = Slot.empty from h .decode (by decide), show b.alu = Slot.empty from h .alu (by decide),
      show b.mem = Slot.empty from h .mem (by decide), show b.writeback = Slot.empty from h .writeback (by decide)]
    rfl
  exact Bank.ext_slots hslots

/-- A shift moves the EMPTY stages up by one, behind a new EMPTY in FETCH (R165). -/
theorem Bank.EmptyBelow.shift {b : Bank} {k : Nat} (h : b.EmptyBelow k) : b.shift.EmptyBelow (k + 1) := by
  intro stage hstage
  cases stage with
  | fetch => rfl
  | decode => exact h .fetch (Nat.lt_of_succ_lt_succ hstage)
  | alu => exact h .decode (Nat.lt_of_succ_lt_succ hstage)
  | mem => exact h .alu (Nat.lt_of_succ_lt_succ hstage)
  | writeback => exact h .mem (Nat.lt_of_succ_lt_succ hstage)

/-- ADVANCE adds a stage to the EMPTY ones: its first body does, and no replay takes one away. -/
theorem Instance.emptyBelow_advance {c : Instance} {k : Nat} (h : c.bank.EmptyBelow k) (p : Params) :
    (c.advance p).bank.EmptyBelow (k + 1) := by
  have body : ∀ d : Instance, d.bank.EmptyBelow (k + 1) → d.bank.shift.EmptyBelow (k + 1) :=
    fun d hd => hd.shift.mono (by omega)
  have first : c.retire.detect.2.tickAndShift.bank.EmptyBelow (k + 1) := h.shift
  exact repeatTimes_induction (P := fun d : Instance => d.bank.EmptyBelow (k + 1))
    (fun d hd => Instance.advanceBody_induction (P := fun d : Instance => d.bank.EmptyBelow (k + 1))
      body body _ _ _ hd) _ first

/-- A drain that may advance once for every stage not known to be EMPTY ends on an all-EMPTY bank. -/
theorem Instance.drain_bank {p : Params} {fuel k : Nat} (hfuel : Config.stages ≤ k + fuel) {c : Instance}
    (h : c.bank.EmptyBelow k) : (c.drain p fuel).bank = Bank.empty := by
  induction fuel generalizing k c with
  | zero => exact (h.mono hfuel).eq_empty
  | succ fuel ih =>
    rw [Instance.drain]
    split
    case isTrue hempty => exact hempty
    case isFalse => exact ih (by omega) (Instance.emptyBelow_advance h p)

/-- FINALIZE empties every bank (R171). -/
@[simp] theorem Instance.finalize_bank (p : Params) (c : Instance) : (c.finalize p).bank = Bank.empty :=
  Instance.drain_bank (k := 0) (by omega) fun _ hstage => absurd hstage (Nat.not_lt_zero _)

/-- After FINALIZE all that was issued has retired. -/
theorem Instance.finalize_retiredCount (p : Params) (c : Instance) : (c.finalize p).ctr.retiredCount = c.issued := by
  have hissued := c.issued_finalize p
  rwa [Instance.issued, Instance.finalize_bank, Bank.inFlight_empty, Nat.add_zero] at hissued

/-! The run. -/

/-- A legal CONFIGURE leaves the block running and fresh, whatever stood before (R250). -/
theorem exec_configure_running {s : State} {g : Cfg} (h : Cfg.legal s.params g = true) :
    ∃ t, exec (.configure g.indexBits g.blockSizeWords g.associativity g.branchPrediction) s = .next t
      ∧ t.Running (freshInstance g) := by
  refine ⟨s.construct g, rfl, ?_⟩
  rw [State.construct_of_legal h]
  exact ⟨rfl, rfl⟩

/-- Settles O50: the commands issue one instruction for each counting PROCESS command, and FINALIZE retires all. -/
theorem drainIsComplete : Obligations.DrainIsComplete := by
  intro s g is hlegal his
  obtain ⟨s₀, hconfigure, hrunning₀⟩ := exec_configure_running hlegal
  obtain ⟨s₁, c, hcommands, hrunning, hissued⟩ := execAll_issued his hrunning₀
  have hfinalize := exec_finalize_of_running hrunning
  refine ⟨_, c.finalize s₁.params, ?completes, hrunning.completed _ .done, ?empty, ?retired⟩
  case completes =>
    rw [execAll_cons_of_next hconfigure, execAll_append_of_next hcommands, execAll_cons_of_next hfinalize]
    rfl
  case empty =>
    rw [Instance.finalize_bank]
    rfl
  case retired =>
    rw [Instance.finalize_retiredCount, hissued, Instance.issued_freshInstance, Nat.zero_add]

end Sys2Proof.Machine

/-! PROOF. Which commands write an instruction into the bank (43_dispatch.md R198): everything built on ADVANCE alone
moves the old slots toward WRITEBACK behind EMPTY ones, so only the insertion of a PROCESS command and CONFIGURE put
anything else into a stage, and CONFIGURE puts EMPTY. -/

namespace Sys2Proof.Machine

/-! The bank moved on. -/

/-- `d` is the bank `b` moved on by some number of stages: EMPTY slots, then the slots of `b` that are still in it. -/
def Bank.MovedOn (b d : Bank) : Prop := ∃ k : Nat, d.slots = (List.replicate k Slot.empty ++ b.slots).take Config.stages

theorem Bank.MovedOn.refl (b : Bank) : b.MovedOn b := ⟨0, rfl⟩

/-- A shift puts one EMPTY slot in front and drops the last slot (R165). -/
theorem Bank.shift_slots (b : Bank) : b.shift.slots = (Slot.empty :: b.slots).take Config.stages := rfl

theorem Bank.MovedOn.shift {b d : Bank} (h : b.MovedOn d) : b.MovedOn d.shift := by
  obtain ⟨k, hslots⟩ := h
  refine ⟨k + 1, ?_⟩
  rw [Bank.shift_slots, hslots, List.replicate_succ, List.cons_append, List.take_succ_cons, List.take_succ_cons,
    List.take_take, min_eq_left (Nat.le_succ _)]

/-! The commands without an insertion. -/

/-- ADVANCE, with all its replays, only shifts the bank: retirement, DETECT and the cycle count write no slot. -/
theorem Instance.movedOn_advance {b : Bank} {d : Instance} (h : b.MovedOn d.bank) (p : Params) :
    b.MovedOn (d.advance p).bank :=
  Instance.advance_induction (P := fun d => b.MovedOn d.bank) (quiet := fun _ hd => hd.shift)
    (detecting := fun _ hd => hd.shift) p h

/-- The lookup writes no slot, and the burn of a miss is made of ADVANCEs (R210). -/
theorem Instance.movedOn_fetchAccess (p : Params) (addr : Addr) (c : Instance) :
    c.bank.MovedOn (c.fetchAccess p addr).bank :=
  Instance.fetchAccess_induction (P := fun d => c.bank.MovedOn d.bank) (fun _ hd => Instance.movedOn_advance hd p)
    (Bank.MovedOn.refl c.bank)

theorem Instance.movedOn_finalize (p : Params) (c : Instance) : c.bank.MovedOn (c.finalize p).bank :=
  Instance.finalize_induction (P := fun d => c.bank.MovedOn d.bank) (fun _ hd => Instance.movedOn_advance hd p)
    (Bank.MovedOn.refl c.bank)

/-- On a running block LOOKUP, FETCH_ACCESS, ADVANCE and FINALIZE move the bank on. -/
theorem exec_movedOn {s : State} {c : Instance} (h : s.Running c) {i : Instr}
    (hi : (∃ addr, i = .lookup addr ∨ i = .fetchAccess addr) ∨ i = .advance ∨ i = .finalize) :
    ∃ c' r, exec i s = .next { s with inst := some c', response := some r } ∧ c.bank.MovedOn c'.bank := by
  obtain ⟨addr, rfl | rfl⟩ | rfl | rfl := hi
  · exact ⟨_, _, exec_lookup_of_running h addr, Bank.MovedOn.refl c.bank⟩
  · exact ⟨_, _, exec_fetchAccess_of_running h addr, c.movedOn_fetchAccess s.params addr⟩
  · exact ⟨_, _, exec_advance_of_running h, Instance.movedOn_advance (Bank.MovedOn.refl c.bank) s.params⟩
  · exact ⟨_, _, exec_finalize_of_running h, c.movedOn_finalize s.params⟩

/-- The only instance CONFIGURE can leave is the fresh one (R250, R251). -/
theorem State.construct_inst {s : State} {g : Cfg} {c : Instance} (h : (s.construct g).inst = some c) :
    c = freshInstance g := by
  cases hlegal : Cfg.legal s.params g with
  | true =>
    rw [State.construct_of_legal hlegal] at h
    exact (Option.some.inj h).symm
  | false =>
    rw [State.construct_of_illegal hlegal] at h
    exact absurd h.symm (Option.some_ne_none c)

/-- Settles O36: the four commands move the bank on, and the instance CONFIGURE leaves has an all-EMPTY bank. -/
theorem onlyProcessInsertsInstructions : Obligations.OnlyProcessInsertsInstructions := by
  constructor
  · intro s c i h hi
    obtain ⟨c', r, hexec, k, hslots⟩ := exec_movedOn h hi
    exact ⟨c', r, k, hexec, hslots⟩
  · intro s ib bsw assoc pred
    refine ⟨s.construct ⟨ib, bsw, assoc, pred⟩, rfl, fun c' hc' => ?_⟩
    rw [State.construct_inst hc', freshInstance_bank, Bank.empty_slots]
    rfl

end Sys2Proof.Machine

/-! PROOF. The empty run (60_exceptions.md R238): FINALIZE finds the bank EMPTY and does nothing, so the read-out has the
counters of CONFIGURE, and both rates have the denominator 0. -/

namespace Sys2Proof.Machine

/-! The read-out. -/

/-- R237. -/
@[simp] theorem rate_zero_right (n : Nat) : rate n 0 = 0 := if_pos rfl

/-- Without an access the miss rate is 0 (R237). -/
theorem Counters.missRate_of_noAccess {k : Counters} (h : k.cacheAccess = 0) : k.missRate = 0 := by
  rw [Counters.missRate, h, rate_zero_right]

/-- Without a retirement CPI is 0 (R237). -/
theorem Counters.cpi_of_noRetirement {k : Counters} (h : k.retiredCount = 0) : k.cpi = 0 := by
  rw [Counters.cpi, h, rate_zero_right]

/-- Where there is an instance its counters are reported, with their rates (R236). -/
theorem State.Running.report {s : State} {c : Instance} (h : s.Running c) :
    s.report = some ⟨c.ctr, c.ctr.missRate, c.ctr.cpi⟩ := by
  obtain ⟨-, hinst⟩ := h
  rw [State.report, hinst]

/-- A running block shows no exception (R47, R220). -/
theorem State.Running.fatalCode {s : State} {c : Instance} (h : s.Running c) : s.fatalCode = 0 := by
  obtain ⟨hfatal, -⟩ := h
  rw [State.fatalCode, hfatal]

/-! The run. -/

/-- FINALIZE on an all-EMPTY bank advances no time (R170). -/
theorem Instance.finalize_of_empty {c : Instance} (h : c.bank = Bank.empty) (p : Params) : c.finalize p = c :=
  if_pos h

/-- Settles O53: FINALIZE leaves the fresh instance as CONFIGURE made it, and its counters are read out. -/
theorem emptyRunReportsZero : Obligations.EmptyRunReportsZero := by
  intro s g hlegal
  obtain ⟨s₀, hconfigure, hrunning₀⟩ := exec_configure_running hlegal
  have hfinalize := exec_finalize_of_running hrunning₀
  rw [Instance.finalize_of_empty (freshInstance_bank g)] at hfinalize
  have hrunning := hrunning₀.completed (freshInstance g) .done
  have hmissRate : (freshInstance g).ctr.missRate = 0 := Counters.missRate_of_noAccess rfl
  have hcpi : (freshInstance g).ctr.cpi = 0 := Counters.cpi_of_noRetirement rfl
  refine ⟨_, _, ?completes, hrunning.report, freshInstance_ctr g, hmissRate, hcpi, hrunning.fatalCode⟩
  case completes =>
    rw [execAll_cons_of_next hconfigure, execAll_cons_of_next hfinalize]
    rfl

end Sys2Proof.Machine

/-! PROOF. What CONFIGURE forgets (70_reset_and_hazards.md R255): accepted or not, it writes the instance, the fatal
cause and the answer anew, and whether it is accepted depends on the parameters alone. -/

namespace Sys2Proof.Machine

/-- The state CONFIGURE leaves is a function of the parameters, the words at the port and the configuration. -/
theorem State.construct_congr {s t : State} (hparams : s.params = t.params) (hpending : s.pending = t.pending)
    (g : Cfg) : s.construct g = t.construct g := by
  cases hlegal : Cfg.legal s.params g with
  | true =>
    have hlegal' : Cfg.legal t.params g = true := by rwa [← hparams]
    rw [State.construct_of_legal hlegal, State.construct_of_legal hlegal', hparams, hpending]
  | false =>
    have hlegal' : Cfg.legal t.params g = false := by rwa [← hparams]
    rw [State.construct_of_illegal hlegal, State.construct_of_illegal hlegal', hparams, hpending]

/-- CONFIGURE constructs, in every state (R250). -/
theorem exec_configure (ib bsw assoc : Nat) (pred : Prediction) (s : State) :
    exec (.configure ib bsw assoc pred) s = .next (s.construct ⟨ib, bsw, assoc, pred⟩) := rfl

/-- Settles O16: CONFIGURE takes the two states to one, and the commands after it run from there. -/
theorem configureForgetsEverything : Obligations.ConfigureForgetsEverything := by
  intro s t ib bsw assoc pred is hparams hpending
  rw [execAll_cons_of_next (exec_configure ib bsw assoc pred s),
    execAll_cons_of_next (exec_configure ib bsw assoc pred t), State.construct_congr hparams hpending]

end Sys2Proof.Machine

/-! PROOF. The command word and the command it stands for (30_encoding.md sections 2 to 5): each field reads back what
the layout wrote, a word is the layout of its fields, and a row of R83 is a condition on those fields. -/

namespace Sys2Proof

/-! One operand. -/

/-- An operand decodes exactly where its presence bit and its index are those the encoder writes for it (R90, R93
condition 3). -/
theorem decodeOperand_eq_ok_iff {p : BitVec 1} {x : BitVec 5} {r : RegOp} :
    decodeOperand p x = .ok r ↔ RegOp.encodable r = true ∧ encodeOperand r = p.toNat * 32 + x.toNat := by
  have hx := x.isLt
  obtain rfl | rfl := BitVec.eq_zero_or_eq_one p
  case inl =>
    by_cases hx0 : x = 0#5
    · subst hx0
      cases r <;> simp [decodeOperand, RegOp.encodable, encodeOperand]
    · have hne : x.toNat ≠ 0 := by simpa [← BitVec.toNat_inj] using hx0
      cases r <;> simp [decodeOperand, RegOp.encodable, encodeOperand, hx0] <;> omega
  case inr =>
    cases r <;> simp [decodeOperand, RegOp.encodable, encodeOperand, Config.regW] <;> omega

/-- Some operand decodes unless an absent one has a nonzero index (R93 condition 3). -/
theorem exists_decodeOperand_iff {p : BitVec 1} {x : BitVec 5} :
    (∃ r, decodeOperand p x = .ok r) ↔ (p = 0#1 → x = 0#5) := by
  obtain rfl | rfl := BitVec.eq_zero_or_eq_one p
  case inl => by_cases hx : x = 0#5 <;> simp [decodeOperand, hx]
  case inr => simp [decodeOperand]

/-- A mandatory operand is one that is present (R93 condition 4). -/
theorem decodeMandatory_eq_ok_iff {p : BitVec 1} {x : BitVec 5} {r : RegOp} :
    decodeMandatory p x = .ok r ↔ decodeOperand p x = .ok r ∧ r.isSome = true := by
  unfold decodeMandatory
  split
  case h_1 habsent =>
    rw [habsent]
    cases r <;> simp
  case h_2 hpresent =>
    cases r with
    | none => simpa using hpresent
    | some r => simp

/-- Its presence bit is all that decides (R93 condition 4). -/
theorem exists_decodeMandatory_iff {p : BitVec 1} {x : BitVec 5} :
    (∃ r, decodeMandatory p x = .ok r) ↔ p = 1#1 := by
  simp only [decodeMandatory_eq_ok_iff]
  obtain rfl | rfl := BitVec.eq_zero_or_eq_one p
  case inl => by_cases hx : x = 0#5 <;> simp [decodeOperand, hx]
  case inr => simp [decodeOperand]

/-! One format. -/

theorem decodeAddrOnly_eq_ok_iff {w : CommandWord} {make : Addr → Instr} {i : Instr} :
    decodeAddrOnly w make = .ok i ↔ fieldMid w = 0#28 ∧ make (fieldLo w) = i := by
  unfold decodeAddrOnly
  split <;> simp [*]

theorem decodeBare_eq_ok_iff {w : CommandWord} {j i : Instr} :
    decodeBare w j = .ok i ↔ (fieldMid w = 0#28 ∧ fieldLo w = 0#32) ∧ j = i := by
  unfold decodeBare
  split <;> simp [*]

theorem decodeConfigure_eq_ok_iff {w : CommandWord} {i : Instr} :
    decodeConfigure w = .ok i ↔ (fieldMid w = 0#28 ∧ fieldLoTop w = 0#4)
      ∧ .configure (fieldIndexBits w).toNat (fieldBlockSizeWords w).toNat (fieldAssociativity w).toNat
          (decodePrediction (fieldPrediction w)) = i := by
  unfold decodeConfigure
  split <;> simp [*]

theorem decodeTwoOperands_eq_ok_iff {w : CommandWord} {make : Addr → RegOp → RegOp → Instr} {i : Instr} :
    decodeTwoOperands w make = .ok i ↔ fieldCz w = 0#16
      ∧ ∃ a b, decodeMandatory (fieldAp w) (fieldA w) = .ok a ∧ decodeOperand (fieldBp w) (fieldB w) = .ok b
        ∧ make (fieldLo w) a b = i := by
  unfold decodeTwoOperands
  split
  case isTrue hz => split <;> simp [*]
  case isFalse hz => simp [hz]

theorem decodeThreeOperands_eq_ok_iff {w : CommandWord} {make : Addr → RegOp → RegOp → RegOp → Instr} {i : Instr} :
    decodeThreeOperands w make = .ok i ↔ fieldZ w = 0#10
      ∧ ∃ a b c, decodeMandatory (fieldAp w) (fieldA w) = .ok a ∧ decodeOperand (fieldBp w) (fieldB w) = .ok b
        ∧ decodeOperand (fieldCp w) (fieldC w) = .ok c ∧ make (fieldLo w) a b c = i := by
  unfold decodeThreeOperands
  split
  case isTrue hz => split <;> simp [*]
  case isFalse hz => simp [hz]

/-- Format P2 decodes when its zero fields are zero, a is present and an absent b has a zero index (R93). -/
theorem exists_decodeTwoOperands_iff {w : CommandWord} {make : Addr → RegOp → RegOp → Instr} :
    (∃ i, decodeTwoOperands w make = .ok i) ↔
      fieldCz w = 0#16 ∧ fieldAp w = 1#1 ∧ (fieldBp w = 0#1 → fieldB w = 0#5) := by
  rw [← exists_decodeMandatory_iff (x := fieldA w), ← exists_decodeOperand_iff]
  simp only [decodeTwoOperands_eq_ok_iff]
  tauto

/-- Format P3 decodes when `z` is zero, a is present and absent b and c have a zero index (R93). -/
theorem exists_decodeThreeOperands_iff {w : CommandWord} {make : Addr → RegOp → RegOp → RegOp → Instr} :
    (∃ i, decodeThreeOperands w make = .ok i) ↔ fieldZ w = 0#10 ∧ fieldAp w = 1#1
      ∧ (fieldBp w = 0#1 → fieldB w = 0#5) ∧ (fieldCp w = 0#1 → fieldC w = 0#5) := by
  rw [← exists_decodeMandatory_iff (x := fieldA w), ← exists_decodeOperand_iff, ← exists_decodeOperand_iff]
  simp only [decodeThreeOperands_eq_ok_iff]
  tauto

/-! The fields of a layout. -/

section
variable (op : BitVec 4) (a b c : RegOp) (lo : BitVec 32)

/-- The fields of operands a, b and c are the numbers the encoder made of them (R81). -/
theorem operandFields_layoutWord :
    (encodeOperand a = (fieldAp (layoutWord op a b c lo)).toNat * 32 + (fieldA (layoutWord op a b c lo)).toNat)
    ∧ (encodeOperand b = (fieldBp (layoutWord op a b c lo)).toNat * 32 + (fieldB (layoutWord op a b c lo)).toNat)
    ∧ (encodeOperand c = (fieldCp (layoutWord op a b c lo)).toNat * 32 + (fieldC (layoutWord op a b c lo)).toNat) := by
  have := encodeOperand_lt a
  have := encodeOperand_lt b
  have := encodeOperand_lt c
  have := lo.isLt
  simp only [fieldAp, fieldA, fieldBp, fieldB, fieldCp, fieldC, extractLsb'_toNat_eq, layoutWord_toNat]
  omega

/-- The layout leaves `z` zero (R82). -/
theorem fieldZ_layoutWord : fieldZ (layoutWord op a b c lo) = 0#10 := by
  have := lo.isLt
  apply BitVec.eq_of_toNat_eq
  rw [fieldZ, extractLsb'_toNat_eq, layoutWord_toNat, BitVec.toNat_ofNat]
  omega

/-- Without an operand c, `c_p`, `c` and `z` are zero (format P2). -/
theorem fieldCz_layoutWord : fieldCz (layoutWord op a b none lo) = 0#16 := by
  have := lo.isLt
  have hnone : encodeOperand none = 0 := rfl
  apply BitVec.eq_of_toNat_eq
  rw [fieldCz, extractLsb'_toNat_eq, layoutWord_toNat, hnone, BitVec.toNat_ofNat]
  omega

/-- Without operands all bits between `op` and `lo` are zero (formats P0, A, Z and C). -/
theorem fieldMid_layoutWord : fieldMid (layoutWord op none none none lo) = 0#28 := by
  have := lo.isLt
  have hnone : encodeOperand none = 0 := rfl
  apply BitVec.eq_of_toNat_eq
  rw [fieldMid, extractLsb'_toNat_eq, layoutWord_toNat, hnone, BitVec.toNat_ofNat]
  omega

end

/-! Decoding a layout. -/

theorem decodeAddrOnly_layoutWord (op : BitVec 4) (addr : Addr) (make : Addr → Instr) :
    decodeAddrOnly (layoutWord op none none none addr) make = .ok (make addr) :=
  decodeAddrOnly_eq_ok_iff.mpr ⟨fieldMid_layoutWord op addr, by rw [fieldLo_layoutWord]⟩

theorem decodeBare_layoutWord (op : BitVec 4) (i : Instr) :
    decodeBare (layoutWord op none none none 0#32) i = .ok i :=
  decodeBare_eq_ok_iff.mpr ⟨⟨fieldMid_layoutWord op 0#32, fieldLo_layoutWord ..⟩, rfl⟩

theorem decodeTwoOperands_layoutWord (op : BitVec 4) {a b : RegOp} (addr : Addr)
    (make : Addr → RegOp → RegOp → Instr) (hpresent : a.isSome = true) (ha : RegOp.encodable a = true)
    (hb : RegOp.encodable b = true) :
    decodeTwoOperands (layoutWord op a b none addr) make = .ok (make addr a b) := by
  obtain ⟨hfa, hfb, -⟩ := operandFields_layoutWord op a b none addr
  exact decodeTwoOperands_eq_ok_iff.mpr ⟨fieldCz_layoutWord op a b addr, a, b,
    decodeMandatory_eq_ok_iff.mpr ⟨decodeOperand_eq_ok_iff.mpr ⟨ha, hfa⟩, hpresent⟩,
    decodeOperand_eq_ok_iff.mpr ⟨hb, hfb⟩, by rw [fieldLo_layoutWord]⟩

theorem decodeThreeOperands_layoutWord (op : BitVec 4) {a b c : RegOp} (addr : Addr)
    (make : Addr → RegOp → RegOp → RegOp → Instr) (hpresent : a.isSome = true) (ha : RegOp.encodable a = true)
    (hb : RegOp.encodable b = true) (hc : RegOp.encodable c = true) :
    decodeThreeOperands (layoutWord op a b c addr) make = .ok (make addr a b c) := by
  obtain ⟨hfa, hfb, hfc⟩ := operandFields_layoutWord op a b c addr
  exact decodeThreeOperands_eq_ok_iff.mpr ⟨fieldZ_layoutWord op a b c addr, a, b, c,
    decodeMandatory_eq_ok_iff.mpr ⟨decodeOperand_eq_ok_iff.mpr ⟨ha, hfa⟩, hpresent⟩,
    decodeOperand_eq_ok_iff.mpr ⟨hb, hfb⟩, decodeOperand_eq_ok_iff.mpr ⟨hc, hfc⟩, by rw [fieldLo_layoutWord]⟩

/-! The configuration. -/

theorem encodePrediction_le_one (p : Prediction) : encodePrediction p ≤ 1 := by
  cases p <;> decide

@[simp] theorem decodePrediction_encodePrediction (p : Prediction) :
    decodePrediction (BitVec.ofNat 1 (encodePrediction p)) = p := by
  cases p <;> rfl

@[simp] theorem encodePrediction_decodePrediction (x : BitVec 1) :
    encodePrediction (decodePrediction x) = x.toNat := by
  obtain rfl | rfl := BitVec.eq_zero_or_eq_one x <;> rfl

/-- The configuration does not overflow its field: every value keeps its place (R96). -/
theorem layoutConfiguration_toNat {ib bsw assoc : Nat} (p : Prediction)
    (hfit : configFieldsFit ib bsw assoc = true) :
    (layoutConfiguration ib bsw assoc p).toNat
      = encodePrediction p * 2 ^ 27 + assoc * 2 ^ 11 + bsw * 2 ^ 6 + ib := by
  have := encodePrediction_le_one p
  simp only [configFieldsFit, Bool.and_eq_true, decide_eq_true_eq] at hfit
  simp only [layoutConfiguration, BitVec.toNat_ofNat, Nat.shiftLeft_eq]
  omega

theorem decodeConfigure_layoutWord (op : BitVec 4) {ib bsw assoc : Nat} (p : Prediction)
    (hfit : configFieldsFit ib bsw assoc = true) :
    decodeConfigure (layoutWord op none none none (layoutConfiguration ib bsw assoc p))
      = .ok (.configure ib bsw assoc p) := by
  have hp := encodePrediction_le_one p
  have hlo := layoutConfiguration_toNat p hfit
  have hword := layoutWord_toNat op none none none (layoutConfiguration ib bsw assoc p)
  simp only [configFieldsFit, Bool.and_eq_true, decide_eq_true_eq] at hfit
  rw [hlo, show encodeOperand none = 0 from rfl] at hword
  have hpred : fieldPrediction (layoutWord op none none none (layoutConfiguration ib bsw assoc p))
      = BitVec.ofNat 1 (encodePrediction p) := by
    apply BitVec.eq_of_toNat_eq
    rw [fieldPrediction, extractLsb'_toNat_eq, hword, BitVec.toNat_ofNat]
    omega
  have htop : fieldLoTop (layoutWord op none none none (layoutConfiguration ib bsw assoc p)) = 0#4 := by
    apply BitVec.eq_of_toNat_eq
    rw [fieldLoTop, extractLsb'_toNat_eq, hword, BitVec.toNat_ofNat]
    omega
  refine decodeConfigure_eq_ok_iff.mpr ⟨⟨fieldMid_layoutWord op _, htop⟩, ?_⟩
  rw [hpred, decodePrediction_encodePrediction]
  simp only [fieldIndexBits, fieldBlockSizeWords, fieldAssociativity, extractLsb'_toNat_eq, hword,
    Instr.configure.injEq, and_true]
  omega

/-- Settles O1, command by command: the `op` value selects the format that the encoder has laid out. -/
theorem decodeEncodeRoundTrip : Obligations.DecodeEncodeRoundTrip := by
  intro i hwf
  obtain ⟨hnop, hrtype, hload, hstore, hbranch, hjump, hsyscall, hlookup, hadvance, hfetch, hfinalize, hconfigure⟩ :=
    decode_of_fieldOp (encode i)
  obtain ⟨hpresent, hfit⟩ : i.mandatoryPresent = true ∧ i.operandsFit = true := by
    simpa [Instr.wellFormed] using hwf
  cases i with
  | processNop addr => exact (hnop (fieldOp_layoutWord ..)).trans (decodeAddrOnly_layoutWord ..)
  | processBranch addr => exact (hbranch (fieldOp_layoutWord ..)).trans (decodeAddrOnly_layoutWord ..)
  | processJump addr => exact (hjump (fieldOp_layoutWord ..)).trans (decodeAddrOnly_layoutWord ..)
  | processSyscall addr => exact (hsyscall (fieldOp_layoutWord ..)).trans (decodeAddrOnly_layoutWord ..)
  | lookup addr => exact (hlookup (fieldOp_layoutWord ..)).trans (decodeAddrOnly_layoutWord ..)
  | fetchAccess addr => exact (hfetch (fieldOp_layoutWord ..)).trans (decodeAddrOnly_layoutWord ..)
  | advance => exact (hadvance (fieldOp_layoutWord ..)).trans (decodeBare_layoutWord ..)
  | finalize => exact (hfinalize (fieldOp_layoutWord ..)).trans (decodeBare_layoutWord ..)
  | processRtype addr dest src1 src2 =>
    obtain ⟨⟨hdest, hsrc1⟩, hsrc2⟩ := by simpa [Instr.operandsFit] using hfit
    exact (hrtype (fieldOp_layoutWord ..)).trans
      (decodeThreeOperands_layoutWord _ addr .processRtype hpresent hdest hsrc1 hsrc2)
  | processLoad addr dest base =>
    obtain ⟨hdest, hbase⟩ := by simpa [Instr.operandsFit] using hfit
    exact (hload (fieldOp_layoutWord ..)).trans (decodeTwoOperands_layoutWord _ addr .processLoad hpresent hdest hbase)
  | processStore addr src base =>
    obtain ⟨hsrc, hbase⟩ := by simpa [Instr.operandsFit] using hfit
    exact (hstore (fieldOp_layoutWord ..)).trans (decodeTwoOperands_layoutWord _ addr .processStore hpresent hsrc hbase)
  | configure ib bsw assoc p => exact (hconfigure (fieldOp_layoutWord ..)).trans (decodeConfigure_layoutWord _ p hfit)

/-! A word as the layout of its fields. -/

/-- Format P3: a word whose `z` is zero is its `op`, its three operands and its `lo`. -/
theorem layoutWord_of_fieldZ {w : CommandWord} {a b c : RegOp} (hz : fieldZ w = 0#10)
    (ha : encodeOperand a = (fieldAp w).toNat * 32 + (fieldA w).toNat)
    (hb : encodeOperand b = (fieldBp w).toNat * 32 + (fieldB w).toNat)
    (hc : encodeOperand c = (fieldCp w).toNat * 32 + (fieldC w).toNat) :
    layoutWord (fieldOp w) a b c (fieldLo w) = w := by
  have hw := w.isLt
  have hz' := congrArg BitVec.toNat hz
  simp only [fieldZ, fieldAp, fieldA, fieldBp, fieldB, fieldCp, fieldC, extractLsb'_toNat_eq,
    BitVec.toNat_ofNat] at hz' ha hb hc
  apply BitVec.eq_of_toNat_eq
  rw [layoutWord_toNat, ha, hb, hc, fieldOp, fieldLo, extractLsb'_toNat_eq, extractLsb'_toNat_eq]
  omega

/-- Where `c_p`, `c` and `z` are zero, so is each of them (format P2). -/
theorem fields_of_fieldCz {w : CommandWord} (h : fieldCz w = 0#16) :
    fieldCp w = 0#1 ∧ fieldC w = 0#5 ∧ fieldZ w = 0#10 := by
  have h' := congrArg BitVec.toNat h
  simp only [fieldCz, fieldCp, fieldC, fieldZ, ← BitVec.toNat_inj, extractLsb'_toNat_eq, BitVec.toNat_ofNat] at h' ⊢
  omega

/-- Where all bits between `op` and `lo` are zero, so is every field among them (formats P0, A, Z and C). -/
theorem fields_of_fieldMid {w : CommandWord} (h : fieldMid w = 0#28) :
    (fieldAp w = 0#1 ∧ fieldA w = 0#5) ∧ (fieldBp w = 0#1 ∧ fieldB w = 0#5) ∧ fieldCz w = 0#16 := by
  have h' := congrArg BitVec.toNat h
  simp only [fieldMid, fieldAp, fieldA, fieldBp, fieldB, fieldCz, ← BitVec.toNat_inj, extractLsb'_toNat_eq,
    BitVec.toNat_ofNat] at h' ⊢
  omega

/-- There no absent operand has a nonzero index (R93 condition 3). -/
theorem absentClean_of_fieldMid {w : CommandWord} (h : fieldMid w = 0#28) :
    (fieldBp w = 0#1 → fieldB w = 0#5) ∧ (fieldCp w = 0#1 → fieldC w = 0#5) := by
  obtain ⟨-, ⟨-, hb⟩, hcz⟩ := fields_of_fieldMid h
  obtain ⟨-, hc, -⟩ := fields_of_fieldCz hcz
  exact ⟨fun _ => hb, fun _ => hc⟩

/-- Format P2. -/
theorem layoutWord_of_fieldCz {w : CommandWord} {a b : RegOp} (hcz : fieldCz w = 0#16)
    (ha : encodeOperand a = (fieldAp w).toNat * 32 + (fieldA w).toNat)
    (hb : encodeOperand b = (fieldBp w).toNat * 32 + (fieldB w).toNat) :
    layoutWord (fieldOp w) a b none (fieldLo w) = w := by
  obtain ⟨hcp, hc, hz⟩ := fields_of_fieldCz hcz
  exact layoutWord_of_fieldZ hz ha hb (by rw [hcp, hc]; rfl)

/-- Formats P0, A, Z and C. -/
theorem layoutWord_of_fieldMid {w : CommandWord} (hmid : fieldMid w = 0#28) :
    layoutWord (fieldOp w) none none none (fieldLo w) = w := by
  obtain ⟨⟨hap, ha⟩, ⟨hbp, hb⟩, hcz⟩ := fields_of_fieldMid hmid
  exact layoutWord_of_fieldCz hcz (by rw [hap, ha]; rfl) (by rw [hbp, hb]; rfl)

/-- The values of a CONFIGURE word fit their fields (R96). -/
theorem configFieldsFit_fields (w : CommandWord) :
    configFieldsFit (fieldIndexBits w).toNat (fieldBlockSizeWords w).toNat (fieldAssociativity w).toNat = true := by
  have hib := (fieldIndexBits w).isLt
  have hbsw := (fieldBlockSizeWords w).isLt
  have hassoc := (fieldAssociativity w).isLt
  simp only [configFieldsFit, Bool.and_eq_true, decide_eq_true_eq]
  omega

/-- The `lo` field as the configuration it holds (R96). -/
theorem layoutConfiguration_fields {w : CommandWord} (htop : fieldLoTop w = 0#4) :
    layoutConfiguration (fieldIndexBits w).toNat (fieldBlockSizeWords w).toNat (fieldAssociativity w).toNat
      (decodePrediction (fieldPrediction w)) = fieldLo w := by
  have htop' := congrArg BitVec.toNat htop
  simp only [fieldLoTop, extractLsb'_toNat_eq, BitVec.toNat_ofNat] at htop'
  apply BitVec.eq_of_toNat_eq
  rw [layoutConfiguration_toNat _ (configFieldsFit_fields w), encodePrediction_decodePrediction]
  simp only [fieldIndexBits, fieldBlockSizeWords, fieldAssociativity, fieldPrediction, fieldLo, extractLsb'_toNat_eq]
  omega

/-! What a word that decodes is the encoding of. -/

section
variable {w : CommandWord} {op : BitVec 4} {i : Instr}

theorem encode_of_decodeAddrOnly {make : Addr → Instr} (h : decodeAddrOnly w make = .ok i) (hop : fieldOp w = op)
    (hencode : ∀ addr, encode (make addr) = layoutWord op none none none addr)
    (hwf : ∀ addr, (make addr).wellFormed = true) : encode i = w ∧ i.wellFormed = true := by
  obtain ⟨hmid, rfl⟩ := decodeAddrOnly_eq_ok_iff.mp h
  exact ⟨by rw [hencode, ← hop, layoutWord_of_fieldMid hmid], hwf _⟩

theorem encode_of_decodeBare {j : Instr} (h : decodeBare w j = .ok i) (hop : fieldOp w = op)
    (hencode : encode j = layoutWord op none none none 0#32) (hwf : j.wellFormed = true) :
    encode i = w ∧ i.wellFormed = true := by
  obtain ⟨⟨hmid, hlo⟩, rfl⟩ := decodeBare_eq_ok_iff.mp h
  exact ⟨by rw [hencode, ← hop, ← hlo, layoutWord_of_fieldMid hmid], hwf⟩

theorem encode_of_decodeConfigure (h : decodeConfigure w = .ok i) (hop : fieldOp w = 0xC#4) :
    encode i = w ∧ i.wellFormed = true := by
  obtain ⟨⟨hmid, htop⟩, rfl⟩ := decodeConfigure_eq_ok_iff.mp h
  refine ⟨?_, by simpa [Instr.wellFormed, Instr.mandatoryPresent, Instr.operandsFit] using configFieldsFit_fields w⟩
  calc encode _ = layoutWord (fieldOp w) none none none (fieldLo w) := by
        rw [encode, Instr.opcode, layoutConfiguration_fields htop, hop]
    _ = w := layoutWord_of_fieldMid hmid

theorem encode_of_decodeTwoOperands {make : Addr → RegOp → RegOp → Instr} (h : decodeTwoOperands w make = .ok i)
    (hop : fieldOp w = op) (hencode : ∀ addr a b, encode (make addr a b) = layoutWord op a b none addr)
    (hwf : ∀ addr a b, (make addr a b).wellFormed = (a.isSome && (RegOp.encodable a && RegOp.encodable b))) :
    encode i = w ∧ i.wellFormed = true := by
  obtain ⟨hcz, a, b, ha, hb, rfl⟩ := decodeTwoOperands_eq_ok_iff.mp h
  obtain ⟨ha, hpresent⟩ := decodeMandatory_eq_ok_iff.mp ha
  obtain ⟨hfitA, hfa⟩ := decodeOperand_eq_ok_iff.mp ha
  obtain ⟨hfitB, hfb⟩ := decodeOperand_eq_ok_iff.mp hb
  exact ⟨by rw [hencode, ← hop, layoutWord_of_fieldCz hcz hfa hfb], by simp [hwf, hpresent, hfitA, hfitB]⟩

theorem encode_of_decodeThreeOperands {make : Addr → RegOp → RegOp → RegOp → Instr}
    (h : decodeThreeOperands w make = .ok i) (hop : fieldOp w = op)
    (hencode : ∀ addr a b c, encode (make addr a b c) = layoutWord op a b c addr)
    (hwf : ∀ addr a b c, (make addr a b c).wellFormed
      = (a.isSome && (RegOp.encodable a && RegOp.encodable b && RegOp.encodable c))) :
    encode i = w ∧ i.wellFormed = true := by
  obtain ⟨hz, a, b, c, ha, hb, hc, rfl⟩ := decodeThreeOperands_eq_ok_iff.mp h
  obtain ⟨ha, hpresent⟩ := decodeMandatory_eq_ok_iff.mp ha
  obtain ⟨hfitA, hfa⟩ := decodeOperand_eq_ok_iff.mp ha
  obtain ⟨hfitB, hfb⟩ := decodeOperand_eq_ok_iff.mp hb
  obtain ⟨hfitC, hfc⟩ := decodeOperand_eq_ok_iff.mp hc
  exact ⟨by rw [hencode, ← hop, layoutWord_of_fieldZ hz hfa hfb hfc], by simp [hwf, hpresent, hfitA, hfitB, hfitC]⟩

end

/-- R94: a reserved `op` value selects no format. -/
theorem decode_of_reservedOp {w : CommandWord}
    (h : fieldOp w = 0x7#4 ∨ fieldOp w = 0xD#4 ∨ fieldOp w = 0xE#4 ∨ fieldOp w = 0xF#4) :
    decode w = .error .reservedOp := by
  rcases h with h | h | h | h <;> rw [decode, h] <;> rfl

/-- Settles O4. -/
theorem reservedOpcodesAreRejected : Obligations.ReservedOpcodesAreRejected := by
  intro w hw
  apply decode_of_reservedOp
  simpa [fieldOp, ← BitVec.toNat_inj] using hw

/-- The rows of R83 and the reserved values of R94 are all there is. -/
theorem opcode_cases (op : BitVec 4) :
    (op = 0x0#4 ∨ op = 0x1#4 ∨ op = 0x2#4 ∨ op = 0x3#4 ∨ op = 0x4#4 ∨ op = 0x5#4 ∨ op = 0x6#4 ∨ op = 0x8#4
      ∨ op = 0x9#4 ∨ op = 0xA#4 ∨ op = 0xB#4 ∨ op = 0xC#4)
    ∨ (op = 0x7#4 ∨ op = 0xD#4 ∨ op = 0xE#4 ∨ op = 0xF#4) := by
  decide +revert

/-- Settles O2, row by row: a word that decodes is the layout of its fields. -/
theorem encodeDecodeRoundTrip : Obligations.EncodeDecodeRoundTrip := by
  intro w i h
  obtain ⟨hnop, hrtype, hload, hstore, hbranch, hjump, hsyscall, hlookup, hadvance, hfetch, hfinalize, hconfigure⟩ :=
    decode_of_fieldOp w
  obtain (hop | hop | hop | hop | hop | hop | hop | hop | hop | hop | hop | hop) | hreserved := opcode_cases (fieldOp w)
  · exact encode_of_decodeAddrOnly (hnop hop ▸ h) hop (fun _ => rfl) fun _ => rfl
  · exact encode_of_decodeThreeOperands (hrtype hop ▸ h) hop (fun _ _ _ _ => rfl) fun _ _ _ _ => rfl
  · exact encode_of_decodeTwoOperands (hload hop ▸ h) hop (fun _ _ _ => rfl) fun _ _ _ => rfl
  · exact encode_of_decodeTwoOperands (hstore hop ▸ h) hop (fun _ _ _ => rfl) fun _ _ _ => rfl
  · exact encode_of_decodeAddrOnly (hbranch hop ▸ h) hop (fun _ => rfl) fun _ => rfl
  · exact encode_of_decodeAddrOnly (hjump hop ▸ h) hop (fun _ => rfl) fun _ => rfl
  · exact encode_of_decodeAddrOnly (hsyscall hop ▸ h) hop (fun _ => rfl) fun _ => rfl
  · exact encode_of_decodeAddrOnly (hlookup hop ▸ h) hop (fun _ => rfl) fun _ => rfl
  · exact encode_of_decodeBare (hadvance hop ▸ h) hop rfl rfl
  · exact encode_of_decodeAddrOnly (hfetch hop ▸ h) hop (fun _ => rfl) fun _ => rfl
  · exact encode_of_decodeBare (hfinalize hop ▸ h) hop rfl rfl
  · exact encode_of_decodeConfigure (hconfigure hop ▸ h) hop
  · exact absurd h (decode_ne_ok_of_error .reservedOp (decode_of_reservedOp hreserved) i)

/-! The rows of R83. -/

/-- The mask that selects one field of a word. -/
def fieldMask (start len : Nat) : CommandWord := (BitVec.allOnes len).setWidth 64 <<< start

/-- Words that agree under the mask of a field agree in the field. -/
theorem and_fieldMask_eq_iff {start len : Nat} (hfit : start + len ≤ 64) {w m : CommandWord} :
    w &&& fieldMask start len = m &&& fieldMask start len ↔ w.extractLsb' start len = m.extractLsb' start len := by
  constructor
  case mp =>
    intro h
    ext k hk
    have hbit := congrArg (fun v => v.getLsbD (start + k)) h
    have hin : start + k < 64 := by omega
    simpa [fieldMask, hk, hin] using hbit
  case mpr =>
    intro h
    ext k hk
    by_cases hin : start ≤ k ∧ k < start + len
    · have hbit := congrArg (fun v => v.getLsbD (k - start)) h
      have hlt : k - start < len := by omega
      have hsum : start + (k - start) = k := by omega
      have hbit' : w[k] = m[k] := by simpa [hlt, hsum, hk, BitVec.getLsbD_eq_getElem] using hbit
      simp [hbit']
    · have hout : (fieldMask start len).getLsbD k = false := by
        simp [fieldMask]
        omega
      rw [BitVec.getLsbD_eq_getElem hk] at hout
      simp [hout]

/-- Words agree under two masks together when they agree under each. -/
theorem and_or_eq_iff {w m x y : CommandWord} :
    w &&& (x ||| y) = m &&& (x ||| y) ↔ w &&& x = m &&& x ∧ w &&& y = m &&& y := by
  constructor
  case mp =>
    intro h
    constructor
    all_goals
      ext k hk
      have hbit := congrArg (fun v => v.getLsbD k) h
      simp only [BitVec.getLsbD_eq_getElem hk, BitVec.getElem_and, BitVec.getElem_or] at hbit ⊢
      grind
  case mpr =>
    rintro ⟨hx, hy⟩
    rw [BitVec.and_or_distrib_left, BitVec.and_or_distrib_left, hx, hy]

section
variable {w m : CommandWord} {op : BitVec 4}

/-- Formats P0 and A. -/
theorem selects_addrOnly_iff (hm : m &&& 0xFFFFFFFF00000000#64 = m) (hop : fieldOp m = op) (hmid : fieldMid m = 0#28) :
    w &&& 0xFFFFFFFF00000000#64 = m ↔ fieldOp w = op ∧ fieldMid w = 0#28 := by
  rw [← hop, ← hmid]
  conv_lhs => rw [← hm, show 0xFFFFFFFF00000000#64 = fieldMask 60 4 ||| fieldMask 32 28 from rfl]
  rw [and_or_eq_iff, and_fieldMask_eq_iff (by decide), and_fieldMask_eq_iff (by decide)]
  rfl

/-- A mask of three fields, of which the first is `op`. -/
theorem selects_three_iff {mask : CommandWord} {start len start' len' : Nat} (hfit : start + len ≤ 64)
    (hfit' : start' + len' ≤ 64) (hmask : mask = fieldMask 60 4 ||| (fieldMask start len ||| fieldMask start' len'))
    (hm : m &&& mask = m) (hop : fieldOp m = op) :
    w &&& mask = m ↔ fieldOp w = op ∧ w.extractLsb' start len = m.extractLsb' start len
      ∧ w.extractLsb' start' len' = m.extractLsb' start' len' := by
  rw [← hop]
  conv_lhs => rw [← hm, hmask]
  rw [and_or_eq_iff, and_or_eq_iff, and_fieldMask_eq_iff (by decide), and_fieldMask_eq_iff hfit,
    and_fieldMask_eq_iff hfit']
  rfl

/-- Format P3. -/
theorem selects_threeOperands_iff (hm : m &&& 0xF80003FF00000000#64 = m) (hop : fieldOp m = op)
    (hap : fieldAp m = 1#1) (hz : fieldZ m = 0#10) :
    w &&& 0xF80003FF00000000#64 = m ↔ fieldOp w = op ∧ fieldAp w = 1#1 ∧ fieldZ w = 0#10 := by
  rw [← hap, ← hz]
  exact selects_three_iff (by decide) (by decide) rfl hm hop

/-- Format P2. -/
theorem selects_twoOperands_iff (hm : m &&& 0xF800FFFF00000000#64 = m) (hop : fieldOp m = op)
    (hap : fieldAp m = 1#1) (hcz : fieldCz m = 0#16) :
    w &&& 0xF800FFFF00000000#64 = m ↔ fieldOp w = op ∧ fieldAp w = 1#1 ∧ fieldCz w = 0#16 := by
  rw [← hap, ← hcz]
  exact selects_three_iff (by decide) (by decide) rfl hm hop

/-- Format Z. -/
theorem selects_bare_iff (hm : m &&& 0xFFFFFFFFFFFFFFFF#64 = m) (hop : fieldOp m = op)
    (hmid : fieldMid m = 0#28) (hlo : fieldLo m = 0#32) :
    w &&& 0xFFFFFFFFFFFFFFFF#64 = m ↔ fieldOp w = op ∧ fieldMid w = 0#28 ∧ fieldLo w = 0#32 := by
  rw [← hmid, ← hlo]
  exact selects_three_iff (by decide) (by decide) rfl hm hop

/-- Format C. -/
theorem selects_configure_iff (hm : m &&& 0xFFFFFFFFF0000000#64 = m) (hop : fieldOp m = op)
    (hmid : fieldMid m = 0#28) (htop : fieldLoTop m = 0#4) :
    w &&& 0xFFFFFFFFF0000000#64 = m ↔ fieldOp w = op ∧ fieldMid w = 0#28 ∧ fieldLoTop w = 0#4 := by
  rw [← hmid, ← htop]
  exact selects_three_iff (by decide) (by decide) rfl hm hop

end

/-- A word selects a row of R83 when its `op` is the row's, the fields the row's format leaves out are zero and a
mandatory operand is present. -/
theorem exists_row_iff (w : CommandWord) : (∃ row ∈ opcodeRows, w &&& row.2 = row.1) ↔
    (fieldOp w ∈ [0x0#4, 0x4#4, 0x5#4, 0x6#4, 0x8#4, 0xA#4] ∧ fieldMid w = 0#28)
    ∨ (fieldOp w ∈ [0x2#4, 0x3#4] ∧ fieldAp w = 1#1 ∧ fieldCz w = 0#16)
    ∨ (fieldOp w = 0x1#4 ∧ fieldAp w = 1#1 ∧ fieldZ w = 0#10)
    ∨ (fieldOp w ∈ [0x9#4, 0xB#4] ∧ fieldMid w = 0#28 ∧ fieldLo w = 0#32)
    ∨ (fieldOp w = 0xC#4 ∧ fieldMid w = 0#28 ∧ fieldLoTop w = 0#4) := by
  rw [opcodeRows]
  simp only [List.exists_mem_cons_iff, List.not_mem_nil, false_and, exists_false, or_false]
  rw [selects_addrOnly_iff (m := 0x0000000000000000#64) (op := 0x0#4) rfl rfl rfl,
    selects_threeOperands_iff (m := 0x1800000000000000#64) (op := 0x1#4) rfl rfl rfl rfl,
    selects_twoOperands_iff (m := 0x2800000000000000#64) (op := 0x2#4) rfl rfl rfl rfl,
    selects_twoOperands_iff (m := 0x3800000000000000#64) (op := 0x3#4) rfl rfl rfl rfl,
    selects_addrOnly_iff (m := 0x4000000000000000#64) (op := 0x4#4) rfl rfl rfl,
    selects_addrOnly_iff (m := 0x5000000000000000#64) (op := 0x5#4) rfl rfl rfl,
    selects_addrOnly_iff (m := 0x6000000000000000#64) (op := 0x6#4) rfl rfl rfl,
    selects_addrOnly_iff (m := 0x8000000000000000#64) (op := 0x8#4) rfl rfl rfl,
    selects_bare_iff (m := 0x9000000000000000#64) (op := 0x9#4) rfl rfl rfl rfl,
    selects_addrOnly_iff (m := 0xA000000000000000#64) (op := 0xA#4) rfl rfl rfl,
    selects_bare_iff (m := 0xB000000000000000#64) (op := 0xB#4) rfl rfl rfl rfl,
    selects_configure_iff (m := 0xC000000000000000#64) (op := 0xC#4) rfl rfl rfl rfl]
  simp only [List.mem_cons, List.not_mem_nil, or_false, or_and_right]
  apply iff_of_eq
  ac_rfl

/-- A word decodes when its `op` is a row's, the fields the row's format leaves out are zero, a mandatory operand is
present and an absent one has a zero index. -/
theorem exists_decode_iff (w : CommandWord) : (∃ i, decode w = .ok i) ↔
    (fieldOp w ∈ [0x0#4, 0x4#4, 0x5#4, 0x6#4, 0x8#4, 0xA#4] ∧ fieldMid w = 0#28)
    ∨ (fieldOp w ∈ [0x2#4, 0x3#4] ∧ fieldCz w = 0#16 ∧ fieldAp w = 1#1 ∧ (fieldBp w = 0#1 → fieldB w = 0#5))
    ∨ (fieldOp w = 0x1#4 ∧ fieldZ w = 0#10 ∧ fieldAp w = 1#1 ∧ (fieldBp w = 0#1 → fieldB w = 0#5)
        ∧ (fieldCp w = 0#1 → fieldC w = 0#5))
    ∨ (fieldOp w ∈ [0x9#4, 0xB#4] ∧ fieldMid w = 0#28 ∧ fieldLo w = 0#32)
    ∨ (fieldOp w = 0xC#4 ∧ fieldMid w = 0#28 ∧ fieldLoTop w = 0#4) := by
  obtain ⟨hnop, hrtype, hload, hstore, hbranch, hjump, hsyscall, hlookup, hadvance, hfetch, hfinalize, hconfigure⟩ :=
    decode_of_fieldOp w
  obtain (hop | hop | hop | hop | hop | hop | hop | hop | hop | hop | hop | hop) | hreserved := opcode_cases (fieldOp w)
  · simp [hnop hop, hop, decodeAddrOnly_eq_ok_iff]
  · simp [hrtype hop, hop, exists_decodeThreeOperands_iff]
  · simp [hload hop, hop, exists_decodeTwoOperands_iff]
  · simp [hstore hop, hop, exists_decodeTwoOperands_iff]
  · simp [hbranch hop, hop, decodeAddrOnly_eq_ok_iff]
  · simp [hjump hop, hop, decodeAddrOnly_eq_ok_iff]
  · simp [hsyscall hop, hop, decodeAddrOnly_eq_ok_iff]
  · simp [hlookup hop, hop, decodeAddrOnly_eq_ok_iff]
  · simp [hadvance hop, hop, decodeBare_eq_ok_iff]
  · simp [hfetch hop, hop, decodeAddrOnly_eq_ok_iff]
  · simp [hfinalize hop, hop, decodeBare_eq_ok_iff]
  · simp [hconfigure hop, hop, decodeConfigure_eq_ok_iff]
  · rw [decode_of_reservedOp hreserved]
    obtain hop | hop | hop | hop := hreserved <;> simp [hop]

/-- Settles O3: what decoding asks beyond a row is the zero index of an absent operand b or c, and a format without that
operand has the index in a field that is zero anyway. -/
theorem wellFormedWordsAreTheTableRows : Obligations.WellFormedWordsAreTheTableRows := by
  intro w
  change _ ↔ _ ∧ (fieldBp w = 0#1 → fieldB w = 0#5) ∧ (fieldCp w = 0#1 → fieldC w = 0#5)
  rw [exists_decode_iff, exists_row_iff]
  constructor
  case mp =>
    rintro (⟨hop, hmid⟩ | ⟨hop, hcz, hap, hb⟩ | ⟨hop, hz, hap, hb, hc⟩ | ⟨hop, hmid, hlo⟩ | ⟨hop, hmid, htop⟩)
    · exact ⟨.inl ⟨hop, hmid⟩, absentClean_of_fieldMid hmid⟩
    · obtain ⟨-, hc, -⟩ := fields_of_fieldCz hcz
      exact ⟨.inr (.inl ⟨hop, hap, hcz⟩), hb, fun _ => hc⟩
    · exact ⟨.inr (.inr (.inl ⟨hop, hap, hz⟩)), hb, hc⟩
    · exact ⟨.inr (.inr (.inr (.inl ⟨hop, hmid, hlo⟩))), absentClean_of_fieldMid hmid⟩
    · exact ⟨.inr (.inr (.inr (.inr ⟨hop, hmid, htop⟩))), absentClean_of_fieldMid hmid⟩
  case mpr =>
    rintro ⟨hrow, hb, hc⟩
    obtain hrow | ⟨hop, hap, hcz⟩ | ⟨hop, hap, hz⟩ | hrow := hrow
    · exact .inl hrow
    · exact .inr (.inl ⟨hop, hcz, hap, hb⟩)
    · exact .inr (.inr (.inl ⟨hop, hz, hap, hb, hc⟩))
    · exact .inr (.inr (.inr hrow))

end Sys2Proof

/-! PROOF. One lookup in one set (40_cache.md R113 to R128): on a hit as on a miss some line comes to hold the tag,
valid and with age 0, and every other valid line grows older by 1. What a lookup does to the occupancy, to the invariant
of the set and to the recency order is what this one operation does to the lines it leaves alone. -/

namespace Sys2Proof.Machine

/-! The set with one line touched. -/

/-- A set after line `w` was hit by tag `t` or filled with it. -/
def touch (t w : Nat) (ls : CacheSet) : CacheSet := (ls.map (ageLine false)).set w ⟨true, t, 0⟩

@[simp] theorem ageLine_false_valid (l : Line) : (ageLine false l).valid = l.valid := by
  cases h : l.valid <;> simp [ageLine, h]

@[simp] theorem ageLine_false_tag (l : Line) : (ageLine false l).tag = l.tag := by
  cases h : l.valid <;> simp [ageLine, h]

theorem ageLine_false_age_of_valid {l : Line} (h : l.valid = true) : (ageLine false l).age = l.age + 1 := by
  simp [ageLine, h]

theorem ageLine_false_of_invalid {l : Line} (h : l.valid = false) : ageLine false l = l := by
  simp [ageLine, h]

@[simp] theorem touch_length (t w : Nat) (ls : CacheSet) : (touch t w ls).length = ls.length := by
  simp [touch]

/-- The touched set, line by line (R119, R120). -/
theorem touch_getElem?_of_some {t w k : Nat} {ls : CacheSet} {m : Line} (h : ls[k]? = some m) :
    (touch t w ls)[k]? = some
      (if k = w then ⟨true, t, 0⟩ else if m.valid then { m with age := m.age + 1 } else m) := by
  obtain ⟨hlt, rfl⟩ := List.getElem?_eq_some_iff.mp h
  by_cases hk : k = w
  · subst hk
    simp [touch, hlt]
  · simp [touch, Ne.symm hk, hk, hlt, ageLine]

/-- A line of the touched set is the touched line or an old line, older. -/
theorem mem_touch {t w : Nat} {ls : CacheSet} {m : Line} (h : m ∈ touch t w ls) :
    m = ⟨true, t, 0⟩ ∨ ∃ l ∈ ls, m = ageLine false l := by
  obtain hold | hnew := List.mem_or_eq_of_mem_set h
  · obtain ⟨l, hl, rfl⟩ := List.mem_map.mp hold
    exact .inr ⟨l, hl, rfl⟩
  · exact .inl hnew

/-- A set that agrees with the touched one line by line is the touched one. -/
theorem eq_touch_of_getElem? {t w : Nat} {ls v : CacheSet} (hlen : v.length = ls.length)
    (hlines : ∀ k m, ls[k]? = some m → v[k]? = some
      (if k = w then ⟨true, t, 0⟩ else if m.valid then { m with age := m.age + 1 } else m)) :
    v = touch t w ls := by
  apply List.ext_getElem?
  intro k
  cases hk : ls[k]? with
  | none =>
    have hout := List.getElem?_eq_none_iff.mp hk
    rw [List.getElem?_eq_none (by omega), List.getElem?_eq_none (by simpa using hout)]
  | some m => rw [hlines k m hk, touch_getElem?_of_some hk]

/-- Filling a line and making it the most recently used touches it (R119, R120). -/
theorem refresh_insertTag (t w : Nat) (ls : CacheSet) : refresh w (insertTag t w ls) = touch t w ls := by
  refine eq_touch_of_getElem? (by simp) fun k m hk => ?_
  rw [refresh_getElem?, insertTag_getElem?, hk]
  by_cases hkw : k = w
  · simp [hkw, ageLine]
  · simp [hkw, Ne.symm hkw, ageLine]

/-- Making a line that holds the tag the most recently used touches it (R116, R120). -/
theorem refresh_of_hit {t w : Nat} {ls : CacheSet} {l : Line} (hw : ls[w]? = some l) (hvalid : l.valid = true)
    (htag : l.tag = t) : refresh w ls = touch t w ls := by
  refine eq_touch_of_getElem? (by simp) fun k m hk => ?_
  rw [refresh_getElem?_of_some hk]
  by_cases hkw : k = w
  · subst hkw
    obtain rfl : l = m := Option.some.inj (hw.symm.trans hk)
    simp [← hvalid, ← htag]
  · simp [hkw]

/-! Which line a lookup touches. -/

/-- No valid line holds the tag (R115). -/
def NoMatch (t : Nat) (ls : CacheSet) : Prop := ∀ m ∈ ls, m.valid = true → m.tag ≠ t

theorem findHit_of_noMatch {t : Nat} {ls : CacheSet} (h : NoMatch t ls) : findHit t ls = none := by
  simpa [findHit, NoMatch] using h

/-- A miss touches the lowest empty line, if there is one (R117). -/
theorem lookupSet_of_lowestEmpty {t w : Nat} {ls : CacheSet} {e : Line} (hno : NoMatch t ls) (hw : ls[w]? = some e)
    (hempty : e.valid = false) (hlowest : ∀ k m, k < w → ls[k]? = some m → m.valid = true) :
    lookupSet t ls = (touch t w ls, false) := by
  have hfind : findEmpty ls = some w := by
    obtain ⟨hlt, rfl⟩ := List.getElem?_eq_some_iff.mp hw
    refine List.findIdx?_eq_some_iff_getElem.mpr ⟨hlt, by simp [hempty], fun k hk => ?_⟩
    simpa using hlowest k _ hk (List.getElem?_eq_getElem (hk.trans hlt))
  simp [lookupSet, findHit_of_noMatch hno, findVictim, hfind, refresh_insertTag]

/-- A miss in a full set touches the lowest line of the highest age (R118). -/
theorem lookupSet_of_lowestOldest {t w : Nat} {ls : CacheSet} {v : Line} (hno : NoMatch t ls)
    (hfull : ∀ m ∈ ls, m.valid = true) (hw : ls[w]? = some v) (holdest : ∀ m ∈ ls, m.age ≤ v.age)
    (hlowest : ∀ k m, k < w → ls[k]? = some m → m.age < v.age) : lookupSet t ls = (touch t w ls, false) := by
  have hnoEmpty : findEmpty ls = none := by simpa [findEmpty] using hfull
  obtain ⟨hlt, rfl⟩ := List.getElem?_eq_some_iff.mp hw
  have hmax : ls[w].age = maxAge ls := by
    obtain ⟨l, hl, hage⟩ := exists_maxAge (List.ne_nil_of_mem (List.getElem_mem hlt))
    have hle := holdest l hl
    have hge := le_maxAge (List.getElem_mem hlt)
    omega
  have hfind : findOldest ls = some w := by
    refine List.findIdx?_eq_some_iff_getElem.mpr ⟨hlt, by simp [hmax], fun k hk => ?_⟩
    have hyounger := hlowest k _ hk (List.getElem?_eq_getElem (hk.trans hlt))
    simp only [beq_iff_eq]
    omega
  simp [lookupSet, findHit_of_noMatch hno, findVictim, hnoEmpty, hfind, refresh_insertTag]

/-- Every lookup in a set with lines touches one of them: one that holds the tag, the lowest empty one, or the oldest of
a full set. -/
theorem lookupSet_touches (t : Nat) {ls : CacheSet} (hne : ls ≠ []) : ∃ w l, ls[w]? = some l
    ∧ ((l.valid = true ∧ l.tag = t ∧ lookupSet t ls = (touch t w ls, true))
      ∨ (NoMatch t ls ∧ l.valid = false ∧ (∀ k m, k < w → ls[k]? = some m → m.valid = true)
          ∧ lookupSet t ls = (touch t w ls, false))
      ∨ (NoMatch t ls ∧ (∀ m ∈ ls, m.valid = true) ∧ (∀ m ∈ ls, m.age ≤ l.age)
          ∧ lookupSet t ls = (touch t w ls, false))) := by
  obtain ⟨w, l, hw, hvalid, htag, -, heq⟩ | ⟨hno, w, l, hw, hempty, hlow, heq⟩ | ⟨hfull, w, l, hw, hold, -, heq⟩
    | ⟨h, -⟩ := lookupSet_cases t ls
  · exact ⟨w, l, hw, .inl ⟨hvalid, htag, by rw [heq, refresh_of_hit hw hvalid htag]⟩⟩
  · exact ⟨w, l, hw, .inr (.inl ⟨fun m hm hv htag => hno m hm ⟨hv, htag⟩, hempty, hlow,
      by rw [heq, refresh_insertTag]⟩)⟩
  · exact ⟨w, l, hw, .inr (.inr ⟨fun m hm _ => (hfull m hm).2, fun m hm => (hfull m hm).1, hold,
      by rw [heq, refresh_insertTag]⟩)⟩
  · exact absurd h hne

theorem lookupSet_fst_eq_touch (t : Nat) {ls : CacheSet} (hne : ls ≠ []) :
    ∃ w l, ls[w]? = some l ∧ (lookupSet t ls).1 = touch t w ls := by
  obtain ⟨w, l, hw, ⟨-, -, h⟩ | ⟨-, -, -, h⟩ | ⟨-, -, -, h⟩⟩ := lookupSet_touches t hne
  all_goals exact ⟨w, l, hw, by rw [h]⟩

/-- In a set with lines the tag is found right after its lookup (R119). -/
theorem lookupSet_again_hits (t : Nat) {ls : CacheSet} (hne : ls ≠ []) :
    (lookupSet t (lookupSet t ls).1).2 = true := by
  obtain ⟨w, l, hw, heq⟩ := lookupSet_fst_eq_touch t hne
  have hline := touch_getElem?_of_some (t := t) (w := w) hw
  rw [if_pos rfl] at hline
  rw [heq, lookupSet_hit_iff]
  exact ⟨_, List.mem_of_getElem? hline, rfl, rfl⟩

/-- A lookup of another tag brings no match of a tag that had none. -/
theorem NoMatch.lookupSet {t u : Nat} {ls : CacheSet} (h : NoMatch t ls) (hne : u ≠ t) :
    NoMatch t (lookupSet u ls).1 := by
  by_cases hnil : ls = []
  · subst hnil
    exact h
  · obtain ⟨w, l, -, heq⟩ := lookupSet_fst_eq_touch u hnil
    rw [heq]
    intro m hm hvalid
    obtain rfl | ⟨l, hl, rfl⟩ := mem_touch hm
    · exact hne
    · simp only [ageLine_false_valid, ageLine_false_tag] at hvalid ⊢
      exact h l hl hvalid

/-! The valid lines of the touched set. -/

theorem mem_validLines {ls : CacheSet} {l : Line} : l ∈ validLines ls ↔ l ∈ ls ∧ l.valid = true := List.mem_filter

theorem validLines_length_le (ls : CacheSet) : (validLines ls).length ≤ ls.length := List.length_filter_le ..

/-- The valid lines of a set: line `w`, if it is valid, and those of the other lines. -/
theorem validLines_perm {w : Nat} {ls : CacheSet} {l : Line} (hw : ls[w]? = some l) :
    (validLines ls).Perm (if l.valid then l :: validLines (ls.eraseIdx w) else validLines (ls.eraseIdx w)) := by
  obtain ⟨hlt, rfl⟩ := List.getElem?_eq_some_iff.mp hw
  have hperm := (List.getElem_cons_eraseIdx_perm hlt).symm.filter (fun l => l.valid)
  rwa [List.filter_cons] at hperm

/-- Those of the touched set: the touched line, and those of the other lines, each older by 1. -/
theorem validLines_touch_perm {t w : Nat} {ls : CacheSet} (hlt : w < ls.length) :
    (validLines (touch t w ls)).Perm (⟨true, t, 0⟩ :: (validLines (ls.eraseIdx w)).map (ageLine false)) := by
  have hperm := List.set_perm_cons_eraseIdx (l := ls.map (ageLine false)) (by simpa using hlt) ⟨true, t, 0⟩
  have hvalid : (fun l : Line => l.valid) ∘ ageLine false = fun l => l.valid := by
    funext l
    simp
  rw [List.eraseIdx_map] at hperm
  simpa [touch, validLines, List.filter_map, hvalid] using hperm.filter (fun l => l.valid)

/-- Its occupancy: the touched line and the valid ones among the others. -/
theorem validLines_touch_length {t w : Nat} {ls : CacheSet} {l : Line} (hw : ls[w]? = some l) :
    (validLines (touch t w ls)).length = (validLines ls).length + (if l.valid then 0 else 1) := by
  obtain ⟨hlt, -⟩ := List.getElem?_eq_some_iff.mp hw
  have hafter := (validLines_touch_perm (t := t) hlt).length_eq
  have hbefore := (validLines_perm hw).length_eq
  rw [List.length_cons, List.length_map] at hafter
  split at hbefore <;> simp_all

/-- The valid lines of the touched set are the touched line and those that were valid. -/
theorem touch_getElem_valid_iff {t w k : Nat} {ls : CacheSet} (hk : k < (touch t w ls).length) :
    (touch t w ls)[k].valid = true ↔ k = w ∨ (ls[k]'(by simpa using hk)).valid = true := by
  have hline := touch_getElem?_of_some (t := t) (w := w) (List.getElem?_eq_getElem (l := ls) (by simpa using hk))
  rw [List.getElem?_eq_getElem hk, Option.some.injEq] at hline
  rw [hline]
  split_ifs with hkw hvalid <;> simp_all

/-- No valid line becomes invalid (R126). -/
theorem touch_keeps_valid {t w k : Nat} {ls : CacheSet} {m : Line} (h : ls[k]? = some m) (hvalid : m.valid = true) :
    ∃ m', (touch t w ls)[k]? = some m' ∧ m'.valid = true := by
  obtain ⟨hlt, rfl⟩ := List.getElem?_eq_some_iff.mp h
  have hlt' : k < (touch t w ls).length := by simpa using hlt
  exact ⟨_, List.getElem?_eq_getElem hlt', (touch_getElem_valid_iff hlt').mpr (.inr hvalid)⟩

/-- A set is not full exactly where it has an empty line. -/
theorem validLines_length_lt_iff {ls : CacheSet} :
    (validLines ls).length < ls.length ↔ ∃ l ∈ ls, l.valid = false := by
  simp [validLines, List.length_filter_lt_length_iff_exists]

/-- The occupancy after a lookup: one more on a miss in a set that is not full (R126). -/
theorem validLines_lookupSet_length (t : Nat) (ls : CacheSet) :
    (validLines (lookupSet t ls).1).length = (validLines ls).length
      + (if (lookupSet t ls).2 = false ∧ (validLines ls).length < ls.length then 1 else 0) := by
  by_cases hnil : ls = []
  · subst hnil
    rfl
  · obtain ⟨w, l, hw, ⟨hvalid, -, heq⟩ | ⟨-, hempty, -, heq⟩ | ⟨-, hfull, -, heq⟩⟩ := lookupSet_touches t hnil
    · simp [heq, validLines_touch_length hw, hvalid]
    · have hroom := validLines_length_lt_iff.mpr ⟨l, List.mem_of_getElem? hw, hempty⟩
      simp [heq, validLines_touch_length hw, hempty, hroom]
    · have hvalid := hfull l (List.mem_of_getElem? hw)
      have hnoRoom : ¬(validLines ls).length < ls.length := by
        rw [validLines_length_lt_iff]
        simpa using hfull
      simp [heq, validLines_touch_length hw, hvalid, hnoRoom]

theorem lookupSet_keeps_valid {t k : Nat} {ls : CacheSet} {m : Line} (h : ls[k]? = some m) (hvalid : m.valid = true) :
    ∃ m', (lookupSet t ls).1[k]? = some m' ∧ m'.valid = true := by
  obtain ⟨w, l, hw, heq⟩ := lookupSet_fst_eq_touch t (List.ne_nil_of_mem (List.mem_of_getElem? h))
  rw [heq]
  exact touch_keeps_valid h hvalid

/-! The invariant of the set. -/

section
variable {g : Cfg} {t w : Nat} {ls : CacheSet} {l : Line}

/-- Touching a line keeps the invariant of the set, when the lines below are valid and no other valid line holds the
tag. -/
theorem SetInv.touch (h : SetInv g ls) (hw : ls[w]? = some l) (hfits : t < 2 ^ g.tagBits)
    (hbelow : ∀ k m, k < w → ls[k]? = some m → m.valid = true)
    (hfresh : ∀ m ∈ validLines (ls.eraseIdx w), m.tag ≠ t) : SetInv g (touch t w ls) := by
  obtain ⟨hlt, -⟩ := List.getElem?_eq_some_iff.mp hw
  have hperm := validLines_touch_perm (t := t) hlt
  have hothers : (validLines (ls.eraseIdx w)).Sublist (validLines ls) := (List.eraseIdx_sublist ls w).filter _
  constructor
  case length_eq => rw [touch_length, h.length_eq]
  case tags_distinct =>
    rw [hperm.pairwise_iff Ne.symm, List.pairwise_cons, List.pairwise_map]
    refine ⟨?_, by simpa using h.tags_distinct.sublist hothers⟩
    intro m hm
    obtain ⟨l, hl, rfl⟩ := List.mem_map.mp hm
    simpa using (hfresh l hl).symm
  case ages_distinct =>
    rw [hperm.pairwise_iff Ne.symm, List.pairwise_cons, List.pairwise_map]
    refine ⟨?_, (h.ages_distinct.sublist hothers).imp_of_mem fun {x y} hx hy hne => ?_⟩
    · intro m hm
      obtain ⟨l, hl, rfl⟩ := List.mem_map.mp hm
      rw [ageLine_false_age_of_valid (mem_validLines.mp hl).2]
      exact Nat.zero_ne_add_one _
    · rw [ageLine_false_age_of_valid (mem_validLines.mp hx).2, ageLine_false_age_of_valid (mem_validLines.mp hy).2]
      omega
  case youngest => exact fun _ => ⟨⟨true, t, 0⟩, hperm.mem_iff.mpr List.mem_cons_self, rfl⟩
  case filled_in_order =>
    have hfilled := List.pairwise_iff_getElem.mp h.filled_in_order
    refine List.pairwise_iff_getElem.mpr fun i j hi hj hij hvalid => ?_
    rw [touch_getElem_valid_iff] at hvalid ⊢
    have hi' : i < ls.length := by simpa using hi
    obtain hlow | rfl | hhigh := lt_trichotomy i w
    · exact .inr (hbelow i _ hlow (List.getElem?_eq_getElem hi'))
    · exact .inl rfl
    · have hjw : j ≠ w := by omega
      exact .inr (hfilled i j hi' (by simpa using hj) hij (hvalid.resolve_left hjw))
  case invalid_fresh =>
    intro m hm hinvalid
    obtain rfl | ⟨l, hl, rfl⟩ := mem_touch hm
    · simp at hinvalid
    · rw [ageLine_false_valid] at hinvalid
      rw [ageLine_false_of_invalid hinvalid]
      exact h.invalid_fresh l hl hinvalid
  case tags_fit =>
    intro m hm
    obtain rfl | ⟨l, hl, rfl⟩ := mem_touch hm
    · exact hfits
    · simpa using h.tags_fit l hl

/-- In a set that keeps the invariant a line that holds the tag is the only one. -/
theorem SetInv.noMatch_others (h : SetInv g ls) (hw : ls[w]? = some l) (hvalid : l.valid = true) :
    ∀ m ∈ validLines (ls.eraseIdx w), m.tag ≠ l.tag := by
  have hperm := validLines_perm hw
  rw [if_pos hvalid] at hperm
  have hpair := (hperm.pairwise_iff Ne.symm).mp h.tags_distinct
  exact fun m hm => ((List.pairwise_cons.mp hpair).1 m hm).symm

/-- Without a match there is none among the other lines. -/
theorem NoMatch.others (h : NoMatch t ls) (w : Nat) : ∀ m ∈ validLines (ls.eraseIdx w), m.tag ≠ t := by
  intro m hm
  obtain ⟨hmem, hvalid⟩ := mem_validLines.mp hm
  exact h m (List.mem_of_mem_eraseIdx hmem) hvalid

/-- Below a valid line all lines are valid (R125 (e)). -/
theorem SetInv.valid_below (h : SetInv g ls) (hw : ls[w]? = some l) (hvalid : l.valid = true) :
    ∀ k m, k < w → ls[k]? = some m → m.valid = true := by
  intro k m hkw hk
  obtain ⟨hlt, rfl⟩ := List.getElem?_eq_some_iff.mp hw
  obtain ⟨hklt, rfl⟩ := List.getElem?_eq_some_iff.mp hk
  exact List.pairwise_iff_getElem.mp h.filled_in_order k w hklt hlt hkw hvalid

/-- A set with the invariant has lines. -/
theorem SetInv.ne_nil (h : SetInv g ls) (hassoc : 1 ≤ g.associativity) : ls ≠ [] := by
  rw [← List.length_pos_iff, h.length_eq]
  exact hassoc

/-- A lookup keeps the invariant of the set (R125). -/
theorem SetInv.lookupSet (h : SetInv g ls) (hassoc : 1 ≤ g.associativity) (hfits : t < 2 ^ g.tagBits) :
    SetInv g (lookupSet t ls).1 := by
  obtain ⟨w, l, hw, ⟨hvalid, rfl, heq⟩ | ⟨hno, -, hbelow, heq⟩ | ⟨hno, hfull, -, heq⟩⟩ :=
    lookupSet_touches t (h.ne_nil hassoc)
  · rw [heq]
    exact h.touch hw hfits (h.valid_below hw hvalid) (h.noMatch_others hw hvalid)
  · rw [heq]
    exact h.touch hw hfits hbelow (hno.others w)
  · rw [heq]
    exact h.touch hw hfits (fun k m _ hk => hfull m (List.mem_of_getElem? hk)) (hno.others w)

/-- A set as CONFIGURE leaves it has the invariant: it has no valid line. -/
theorem SetInv.freshSet (g : Cfg) : SetInv g (freshSet g.associativity) := by
  have hmem : ∀ l ∈ Machine.freshSet g.associativity, l = freshLine := fun l hl => List.eq_of_mem_replicate hl
  have hnone : validLines (Machine.freshSet g.associativity) = [] := by
    refine List.filter_eq_nil_iff.mpr fun l hl => ?_
    rw [hmem l hl]
    simp [freshLine]
  constructor
  case length_eq => exact List.length_replicate
  case tags_distinct => simp [hnone]
  case ages_distinct => simp [hnone]
  case youngest => exact fun h => absurd hnone h
  case filled_in_order => exact List.pairwise_replicate.mpr (.inr fun h => h)
  case invalid_fresh => exact fun l hl _ => hmem l hl
  case tags_fit =>
    intro l hl
    rw [hmem l hl]
    exact Nat.two_pow_pos _

/-! The recency order. -/

/-- With the other valid lines in order of rising age, the touched line goes in front of them. -/
theorem recencyOrder_touch {order : List Line} (hlt : w < ls.length)
    (hperm : order.Perm (validLines (ls.eraseIdx w))) (hsorted : order.Pairwise (fun x y => x.age < y.age)) :
    RecencyOrder (touch t w ls) (t :: order.map Line.tag) := by
  have hage : ∀ m ∈ order, (ageLine false m).age = m.age + 1 := fun m hm =>
    ageLine_false_age_of_valid (mem_validLines.mp (hperm.subset hm)).2
  refine ⟨⟨true, t, 0⟩ :: order.map (ageLine false), ?_, ?_, by simp⟩
  · exact ((hperm.map _).cons _).trans (validLines_touch_perm hlt).symm
  · rw [List.pairwise_cons, List.pairwise_map]
    constructor
    · intro m hm
      obtain ⟨l, hl, rfl⟩ := List.mem_map.mp hm
      simp [hage l hl]
    · refine hsorted.imp_of_mem fun {x y} hx hy hxy => ?_
      rw [hage x hx, hage y hy]
      omega

/-- An access to a tag of the list moves it to the front. -/
theorem lruAccess_of_mem {assoc t : Nat} {ps qs : List Nat} (hps : t ∉ ps)
    (hlen : (ps ++ t :: qs).length ≤ assoc) : lruAccess assoc t (ps ++ t :: qs) = t :: (ps ++ qs) := by
  rw [lruAccess, List.erase_append_right _ hps, List.erase_cons_head]
  refine List.take_of_length_le ?_
  simpa [Nat.add_assoc] using hlen

/-- An access to another tag puts it in front of a list that is not full. -/
theorem lruAccess_of_not_mem {assoc t : Nat} {ts : List Nat} (ht : t ∉ ts) (hlen : ts.length < assoc) :
    lruAccess assoc t ts = t :: ts := by
  rw [lruAccess, List.erase_of_not_mem ht]
  exact List.take_of_length_le hlen

/-- Of a full list it drops the last tag, the least recently used. -/
theorem lruAccess_of_full {assoc t u : Nat} {ps : List Nat} (ht : t ∉ ps ++ [u])
    (hlen : (ps ++ [u]).length = assoc) : lruAccess assoc t (ps ++ [u]) = t :: ps := by
  rw [lruAccess, List.erase_of_not_mem ht, ← hlen]
  simp

section
variable {ts : List Nat}

/-- The listed tags are those of the valid lines. -/
theorem RecencyOrder.mem_iff (h : RecencyOrder ls ts) : t ∈ ts ↔ ∃ l ∈ ls, l.valid = true ∧ l.tag = t := by
  obtain ⟨order, hperm, -, rfl⟩ := h
  simp only [List.mem_map, hperm.mem_iff, mem_validLines, and_assoc]

theorem RecencyOrder.length_eq (h : RecencyOrder ls ts) : ts.length = (validLines ls).length := by
  obtain ⟨order, hperm, -, rfl⟩ := h
  rw [List.length_map, hperm.length_eq]

theorem RecencyOrder.not_mem (h : RecencyOrder ls ts) (hno : NoMatch t ls) : t ∉ ts := by
  rw [h.mem_iff]
  rintro ⟨l, hl, hvalid, htag⟩
  exact hno l hl hvalid htag

/-- A valid line stands somewhere in the order, and the rest lists the other valid lines. -/
theorem RecencyOrder.split (h : RecencyOrder ls ts) (hw : ls[w]? = some l) (hvalid : l.valid = true) :
    ∃ p q : List Line, ts = p.map Line.tag ++ l.tag :: q.map Line.tag
      ∧ (p ++ q).Perm (validLines (ls.eraseIdx w)) ∧ (p ++ l :: q).Pairwise (fun x y => x.age < y.age) := by
  obtain ⟨order, hperm, hsorted, rfl⟩ := h
  have hmem : l ∈ order := hperm.mem_iff.mpr (mem_validLines.mpr ⟨List.mem_of_getElem? hw, hvalid⟩)
  obtain ⟨p, q, rfl⟩ := List.append_of_mem hmem
  have hothers := validLines_perm hw
  rw [if_pos hvalid] at hothers
  exact ⟨p, q, by simp, (List.perm_middle.symm.trans (hperm.trans hothers)).cons_inv, hsorted⟩

/-- Touching the line that holds the tag moves its tag to the front. -/
theorem RecencyOrder.touch_of_hit (h : RecencyOrder ls ts) (hinv : SetInv g ls) (hw : ls[w]? = some l)
    (hvalid : l.valid = true) : RecencyOrder (touch l.tag w ls) (lruAccess g.associativity l.tag ts) := by
  obtain ⟨hlt, -⟩ := List.getElem?_eq_some_iff.mp hw
  have hlen : ts.length ≤ g.associativity := h.length_eq ▸ hinv.length_eq ▸ validLines_length_le ls
  obtain ⟨p, q, rfl, hothers, hsorted⟩ := h.split hw hvalid
  have hp : l.tag ∉ p.map Line.tag := by
    intro hmem
    obtain ⟨m, hm, htag⟩ := List.mem_map.mp hmem
    exact hinv.noMatch_others hw hvalid m (hothers.subset (List.mem_append_left q hm)) htag
  rw [lruAccess_of_mem hp hlen, ← List.map_append]
  exact recencyOrder_touch hlt hothers (hsorted.sublist (List.Sublist.append_left (List.sublist_cons_self l q) p))

/-- Touching an empty line puts a new tag in front. -/
theorem RecencyOrder.touch_of_empty (h : RecencyOrder ls ts) (hinv : SetInv g ls) (hw : ls[w]? = some l)
    (hempty : l.valid = false) (hno : NoMatch t ls) :
    RecencyOrder (touch t w ls) (lruAccess g.associativity t ts) := by
  obtain ⟨hlt, -⟩ := List.getElem?_eq_some_iff.mp hw
  have hroom : ts.length < g.associativity := by
    rw [h.length_eq, ← hinv.length_eq]
    exact validLines_length_lt_iff.mpr ⟨l, List.mem_of_getElem? hw, hempty⟩
  rw [lruAccess_of_not_mem (h.not_mem hno) hroom]
  obtain ⟨order, hperm, hsorted, rfl⟩ := h
  have hothers := validLines_perm hw
  rw [if_neg (by simp [hempty])] at hothers
  exact recencyOrder_touch hlt (hperm.trans hothers) hsorted

/-- Touching the oldest line of a full set drops its tag, which is the last in the order. -/
theorem RecencyOrder.touch_of_oldest (h : RecencyOrder ls ts) (hinv : SetInv g ls) (hw : ls[w]? = some l)
    (hfull : ∀ m ∈ ls, m.valid = true) (holdest : ∀ m ∈ ls, m.age ≤ l.age) (hno : NoMatch t ls) :
    RecencyOrder (touch t w ls) (lruAccess g.associativity t ts) := by
  obtain ⟨hlt, -⟩ := List.getElem?_eq_some_iff.mp hw
  have hnot := h.not_mem hno
  have hlen : ts.length = g.associativity := by
    rw [h.length_eq, ← hinv.length_eq, validLines, List.filter_eq_self.mpr hfull]
  obtain ⟨p, q, rfl, hothers, hsorted⟩ := h.split hw (hfull l (List.mem_of_getElem? hw))
  obtain rfl : q = [] := by
    refine List.eq_nil_iff_forall_not_mem.mpr fun m hm => ?_
    have hyounger := (List.pairwise_cons.mp (List.pairwise_append.mp hsorted).2.1).1 m hm
    have hmem := (mem_validLines.mp (hothers.subset (List.mem_append_right p hm))).1
    have hle := holdest m (List.mem_of_mem_eraseIdx hmem)
    omega
  rw [List.map_nil] at hnot hlen ⊢
  rw [lruAccess_of_full hnot hlen]
  rw [List.append_nil] at hothers
  exact recencyOrder_touch hlt hothers (hsorted.sublist (List.sublist_append_left p [l]))

/-- A lookup is an access to the exact LRU list of the set's tags (R127, R128). -/
theorem RecencyOrder.lookupSet (h : RecencyOrder ls ts) (hinv : SetInv g ls) (hassoc : 1 ≤ g.associativity) (t : Nat) :
    RecencyOrder (lookupSet t ls).1 (lruAccess g.associativity t ts) := by
  obtain ⟨w, l, hw, ⟨hvalid, rfl, heq⟩ | ⟨hno, hempty, -, heq⟩ | ⟨hno, hfull, holdest, heq⟩⟩ :=
    lookupSet_touches t (hinv.ne_nil hassoc)
  · rw [heq]
    exact h.touch_of_hit hinv hw hvalid
  · rw [heq]
    exact h.touch_of_empty hinv hw hempty hno
  · rw [heq]
    exact h.touch_of_oldest hinv hw hfull holdest hno

end

end

end Sys2Proof.Machine

/-! PROOF. LOOKUP (40_cache.md): the instance after it, the sets it leaves alone, and the statements about lookups that
follow from what one lookup does in one set. -/

namespace Sys2Proof.Machine

/-- Settles O18: index and tag are remainder and quotient of the block number, which together determine it (R122). -/
theorem sameBlockIffSameIndexAndTag : Obligations.SameBlockIffSameIndexAndTag := by
  intro g a b
  rw [g.index_eq_div_mod, g.index_eq_div_mod, g.tag_eq_div_div, g.tag_eq_div_div]
  constructor
  case mp =>
    rintro ⟨hindex, htag⟩
    rw [← Nat.div_add_mod' (a.toNat / _) (2 ^ g.indexBits), hindex, htag, Nat.div_add_mod']
  case mpr =>
    intro hblock
    rw [hblock]
    exact ⟨rfl, rfl⟩

/-- What a legal configuration says of the lines: a set has some, and every tag fits. -/
theorem Instance.Inv.associativity_pos {p : Params} {c : Instance} (h : c.Inv p) : 1 ≤ c.cfg.associativity := by
  obtain ⟨⟨-, hassoc, -⟩, -⟩ := (Cfg.legal_iff p c.cfg).mp h.legal
  exact hassoc

theorem Instance.Inv.tag_lt {p : Params} {c : Instance} (h : c.Inv p) (addr : Addr) :
    c.cfg.tag addr < 2 ^ c.cfg.tagBits := by
  obtain ⟨⟨-, -, hfit⟩, -⟩ := (Cfg.legal_iff p c.cfg).mp h.legal
  exact Cfg.tag_lt hfit addr

/-! Misses. -/

theorem Instance.hits_of_noMatch {c : Instance} {addr : Addr}
    (h : NoMatch (c.cfg.tag addr) (c.set (c.cfg.index addr))) : c.hits addr = false := by
  rw [Bool.eq_false_iff, ne_eq, c.hits_iff]
  rintro ⟨l, hl, hvalid, htag⟩
  exact h l hl hvalid htag

/-- The next state of a LOOKUP that misses, with the set it selects touched at line `w`. -/
theorem exec_lookup_of_miss {s : State} {c : Instance} {addr : Addr} {w : Nat} (h : s.Running c)
    (hcanonical : setsCanonical c.cfg.associativity c.sets = true)
    (hlookup : lookupSet (c.cfg.tag addr) (c.set (c.cfg.index addr))
      = (touch (c.cfg.tag addr) w (c.set (c.cfg.index addr)), false)) :
    ∃ c' : Instance, exec (.lookup addr) s = .next { s with inst := some c', response := some .miss }
      ∧ c'.ctr = { c.ctr with cacheAccess := c.ctr.cacheAccess + 1, cacheMiss := c.ctr.cacheMiss + 1 }
      ∧ c'.set (c.cfg.index addr) = touch (c.cfg.tag addr) w (c.set (c.cfg.index addr)) := by
  have hmiss : c.hits addr = false := by rw [Instance.hits, hlookup]
  refine ⟨c.lookup addr, ?_, ?_, ?_⟩
  · rw [exec_lookup_of_running h, hmiss]
    rfl
  · rw [Instance.lookup_ctr, hmiss]
    rfl
  · rw [Instance.set_lookup_same hcanonical, hlookup]

/-- Settles O21. -/
theorem lookupMissFillsFirstEmptyLine : Obligations.LookupMissFillsFirstEmptyLine := by
  intro s c addr w e hrun hcanonical hno hw hempty hlowest
  obtain ⟨c', hexec, hctr, hset⟩ :=
    exec_lookup_of_miss hrun hcanonical (lookupSet_of_lowestEmpty hno hw hempty hlowest)
  refine ⟨c', hexec, hctr, ?_, fun k m hk => ?_⟩
  · rw [hset, touch_length]
  · rw [hset, touch_getElem?_of_some hk]

/-- Settles O22. -/
theorem lookupMissEvictsOldestLine : Obligations.LookupMissEvictsOldestLine := by
  intro s c addr w v hrun hcanonical hfull hw holdest hlowest
  have hno : NoMatch (c.cfg.tag addr) (c.set (c.cfg.index addr)) := fun l hl _ => (hfull l hl).2
  obtain ⟨c', hexec, hctr, hset⟩ := exec_lookup_of_miss hrun hcanonical
    (lookupSet_of_lowestOldest hno (fun l hl => (hfull l hl).1) hw holdest hlowest)
  refine ⟨c', hexec, hctr, ?_, fun k m hk => ?_⟩
  · rw [hset, touch_length]
  · rw [hset, touch_getElem?_of_some hk, if_pos (hfull m (List.mem_of_getElem? hk)).1]

/-! Occupancy. -/

/-- Settles O25: the selected set after the LOOKUP is that of one lookup in it, and the others are as they were. -/
theorem occupancyNeverShrinks : Obligations.OccupancyNeverShrinks := by
  intro s c addr hrun hinv
  refine ⟨c.lookup addr, c.hits addr, exec_lookup_of_running hrun addr, fun j => ?_⟩
  by_cases hj : j = c.cfg.index addr
  · subst hj
    rw [Instance.set_lookup_same hinv.canonical]
    constructor
    · rw [validLines_lookupSet_length, (hinv.set_inv _).length_eq]
      simp [Instance.hits]
    · exact fun k l hk hvalid => lookupSet_keeps_valid hk hvalid
  · rw [c.set_lookup_other hj]
    exact ⟨by simp [hj], fun k l hk hvalid => ⟨l, hk, hvalid⟩⟩

/-! Least recently used. -/

/-- Settles O26. -/
theorem lookupRefinesLru : Obligations.LookupRefinesLru := by
  intro s c addr ts hrun hinv horder
  refine ⟨c.lookup addr, ?answer, ?order⟩
  case answer =>
    have hhits : c.hits addr = true ↔ c.cfg.tag addr ∈ ts := (c.hits_iff addr).trans horder.mem_iff.symm
    rw [exec_lookup_of_running hrun, lookupAnswer]
    simp only [hhits]
  case order =>
    rw [Instance.set_lookup_same hinv.canonical]
    exact horder.lookupSet (hinv.set_inv _) hinv.associativity_pos _

/-! Runs of LOOKUPs. -/

/-- A running block runs through any LOOKUPs, and what each of them keeps, they keep. -/
theorem execAll_lookups {P : Instance → Prop} {others : List Addr} (hkeep : ∀ a ∈ others, ∀ d, P d → P (d.lookup a))
    {s : State} {c : Instance} (h : s.Running c) (hc : P c) :
    ∃ t d, execAll (others.map .lookup) s = .next t ∧ t.Running d ∧ P d := by
  induction others generalizing s c with
  | nil => exact ⟨s, c, rfl, h, hc⟩
  | cons a rest ih =>
    obtain ⟨ha, hrest⟩ := List.forall_mem_cons.mp hkeep
    obtain ⟨t, d, hrun, hd⟩ := ih hrest (h.completed (c.lookup a) (lookupAnswer (c.hits a))) (ha c hc)
    exact ⟨t, d, by rw [List.map_cons, execAll_cons_of_next (exec_lookup_of_running h a), hrun], hd⟩

/-- Commands that leave the block running, and then a LOOKUP, end in the LOOKUP's answer. -/
theorem execAll_append_lookup {s t : State} {c : Instance} {is : List Instr} (his : execAll is s = .next t)
    (h : t.Running c) (addr : Addr) : ∃ t', execAll (is ++ [.lookup addr]) s = .next t'
      ∧ t'.response = some (lookupAnswer (c.hits addr)) := by
  refine ⟨{ t with inst := some (c.lookup addr), response := some (lookupAnswer (c.hits addr)) }, ?_, rfl⟩
  rw [execAll_append_of_next his, execAll_cons_of_next (exec_lookup_of_running h addr)]
  rfl

/-- Settles O23: the LOOKUPs of other sets leave the set alone in which the first has put the tag. -/
theorem secondLookupHits : Obligations.SecondLookupHits := by
  intro s c addr others hrun hinv hothers
  have hkeep : ∀ a ∈ others, ∀ d : Instance,
      d.cfg = c.cfg ∧ d.set (c.cfg.index addr) = (c.lookup addr).set (c.cfg.index addr) →
      (d.lookup a).cfg = c.cfg ∧ (d.lookup a).set (c.cfg.index addr) = (c.lookup addr).set (c.cfg.index addr) := by
    rintro a ha d ⟨hcfg, hset⟩
    have hindex : c.cfg.index addr ≠ d.cfg.index a := by rw [hcfg]; exact (hothers a ha).symm
    exact ⟨hcfg, by rw [d.set_lookup_other hindex, hset]⟩
  obtain ⟨t, d, hlookups, hrunning, hcfg, hset⟩ :=
    execAll_lookups hkeep (hrun.completed (c.lookup addr) (lookupAnswer (c.hits addr))) ⟨rfl, rfl⟩
  have hhits : d.hits addr = true := by
    rw [Instance.hits, hcfg, hset, Instance.set_lookup_same hinv.canonical]
    exact lookupSet_again_hits _ ((hinv.set_inv _).ne_nil hinv.associativity_pos)
  obtain ⟨t', hexec, hanswer⟩ := execAll_append_lookup hlookups hrunning addr
  refine ⟨t', ?_, ?_⟩
  · rw [execAll_cons_of_next (exec_lookup_of_running hrun addr), hexec]
  · rw [hanswer, hhits]
    rfl

/-- A LOOKUP of another block brings no match of a tag that had none in its set. -/
theorem Instance.noMatch_lookup {c : Instance} {i t : Nat} {a : Addr}
    (hcanonical : setsCanonical c.cfg.associativity c.sets = true)
    (hno : NoMatch t (c.set i)) (ha : ¬(c.cfg.index a = i ∧ c.cfg.tag a = t)) : NoMatch t ((c.lookup a).set i) := by
  by_cases hi : i = c.cfg.index a
  · subst hi
    rw [Instance.set_lookup_same hcanonical]
    exact hno.lookupSet fun htag => ha ⟨rfl, htag⟩
  · rwa [c.set_lookup_other hi]

/-- Settles O24: CONFIGURE leaves no valid line, and the LOOKUPs of other blocks bring no match. -/
theorem firstLookupOfBlockMisses : Obligations.FirstLookupOfBlockMisses := by
  intro s g addr others hlegal hothers
  obtain ⟨s₀, hconfigure, hrunning₀⟩ := exec_configure_running hlegal
  have hkeep : ∀ a ∈ others, ∀ d : Instance,
      d.cfg = g ∧ setsCanonical g.associativity d.sets = true ∧ NoMatch (g.tag addr) (d.set (g.index addr)) →
      (d.lookup a).cfg = g ∧ setsCanonical g.associativity (d.lookup a).sets = true
        ∧ NoMatch (g.tag addr) ((d.lookup a).set (g.index addr)) := by
    rintro a ha d ⟨rfl, hcanonical, hno⟩
    exact ⟨rfl, writeSet_canonical hcanonical, Instance.noMatch_lookup hcanonical hno (hothers a ha)⟩
  have hfresh : NoMatch (g.tag addr) ((freshInstance g).set (g.index addr)) := by
    intro l hl hvalid
    rw [List.eq_of_mem_replicate hl] at hvalid
    simp [freshLine] at hvalid
  obtain ⟨t, d, hlookups, hrunning, hcfg, -, hno⟩ := execAll_lookups hkeep hrunning₀ ⟨rfl, setsCanonical_nil _, hfresh⟩
  have hmiss : d.hits addr = false := Instance.hits_of_noMatch (by rw [hcfg]; exact hno)
  obtain ⟨t', hexec, hanswer⟩ := execAll_append_lookup hlookups hrunning addr
  refine ⟨t', ?_, ?_⟩
  · rw [execAll_cons_of_next hconfigure, hexec]
  · rw [hanswer, hmiss]
    rfl

end Sys2Proof.Machine

/-! PROOF. The step and the command port (60_exceptions.md R222 to R228, 70_reset_and_hazards.md R250 to R260): a
command constructs, or it is a ParseError, or it acts on the instance of a running block; each of the three says what
becomes of every field. -/

namespace Sys2Proof.Machine

/-! What a step does with the port. -/

/-- A block runs, or it refuses every command but CONFIGURE (R224). -/
theorem State.running_or_closed (s : State) : (∃ c, s.Running c) ∨ s.Closed := by
  cases hfatal : s.fatal with
  | some cause => exact .inr (.inl (by simp [hfatal]))
  | none =>
    cases hinst : s.inst with
    | none => exact .inr (.inr hinst)
    | some c => exact .inl ⟨c, hfatal, hinst⟩

theorem step_of_noWord {s : State} (h : s.pending = []) : step s = .next s := by
  rw [step, State.takeWord, h]
  rfl

theorem step_of_decodes {s : State} {w : CommandWord} {rest : List CommandWord} {i : Instr}
    (h : s.pending = w :: rest) (hdecode : decode w = .ok i) : step s = exec i { s with pending := rest } := by
  rw [step, State.takeWord, h]
  simp only [hdecode]
  rfl

theorem step_of_illFormed {s : State} {w : CommandWord} {rest : List CommandWord} {e : DecodeError}
    (h : s.pending = w :: rest) (hdecode : decode w = .error e) :
    step s = .next ({ s with pending := rest } : State).parseError := by
  rw [step, State.takeWord, h]
  simp only [hdecode]
  rfl

/-- Settles O6. -/
theorem stepRunsDecodedCommand : Obligations.StepRunsDecodedCommand :=
  fun _ _ _ _ hpending hdecode => step_of_decodes hpending hdecode

/-- The opcode table's reading of a word is the decoder's. -/
theorem decode_wordOfTable {nbits w : Nat} {i : Instr} (h : decodeTableWord nbits w = some i) :
    decode (wordOfTable nbits w) = .ok i := by
  unfold decodeTableWord at h
  cases hdecode : decode (wordOfTable nbits w) with
  | ok j =>
    rw [hdecode] at h
    rw [Option.some.inj h]
  | error e =>
    rw [hdecode] at h
    exact absurd h.symm (Option.some_ne_none i)

/-- Settles O7. -/
theorem placedWordIsExecuted : Obligations.PlacedWordIsExecuted :=
  fun s nbits w _ hdecode => step_of_decodes (s := s.withFetchWord nbits w) rfl (decode_wordOfTable hdecode)

/-- Settles O8. -/
theorem illFormedWordRaisesParseError : Obligations.IllFormedWordRaisesParseError := by
  rintro s c w rest ⟨hfatal, hinst⟩ hpending hill
  cases hdecode : decode w with
  | ok i => exact absurd hdecode (hill i)
  | error e =>
    rw [step_of_illFormed hpending hdecode,
      State.parseError_of_running (s := { s with pending := rest }) hfatal hinst]

/-- Settles O9. -/
theorem stepWithoutCommandIsIdle : Obligations.StepWithoutCommandIsIdle := fun _ hpending => step_of_noWord hpending

/-! What a command can do. -/

/-- A command is a CONFIGURE, or it lacks a mandatory operand and is a ParseError, or it acts on the instance of a
running block, by the parameters alone. -/
theorem exec_cases (i : Instr) :
    (∃ ib bsw assoc pred, i = .configure ib bsw assoc pred)
    ∨ (∀ s, exec i s = .next s.parseError)
    ∨ ∃ f : Params → Instance → Instance × Response, ∀ s, exec i s = .next (s.onInstance (f s.params)) := by
  have process : ∀ x : Slot, (∀ s, exec x.processCommand s = .next s.parseError)
      ∨ ∃ f : Params → Instance → Instance × Response,
        ∀ s, exec x.processCommand s = .next (s.onInstance (f s.params)) := by
    intro x
    cases hx : x.mandatoryPresent with
    | false => exact .inl fun s => by rw [exec_processCommand, State.process_of_absent hx]
    | true =>
      exact .inr ⟨fun p c => (c.process p x, .done), fun s => by
        rw [exec_processCommand, State.process_of_present hx]⟩
  cases i with
  | processNop addr => exact .inr (process (.nop addr))
  | processRtype addr dest src1 src2 => exact .inr (process (.rtype addr dest src1 src2))
  | processLoad addr dest base => exact .inr (process (.load addr dest base))
  | processStore addr src base => exact .inr (process (.store addr src base))
  | processBranch addr => exact .inr (process (.branch addr))
  | processJump addr => exact .inr (process (.jump addr))
  | processSyscall addr => exact .inr (process (.syscall addr))
  | lookup addr => exact .inr (.inr ⟨fun _ c => (c.lookup addr, lookupAnswer (c.hits addr)), fun _ => rfl⟩)
  | advance => exact .inr (.inr ⟨fun p c => (c.advance p, .done), fun _ => rfl⟩)
  | fetchAccess addr =>
    exact .inr (.inr ⟨fun p c => (c.fetchAccess p addr, lookupAnswer (c.hits addr)), fun _ => rfl⟩)
  | finalize => exact .inr (.inr ⟨fun p c => (c.finalize p, .done), fun _ => rfl⟩)
  | configure ib bsw assoc pred => exact .inl ⟨ib, bsw, assoc, pred, rfl⟩

/-- In a closed state a command other than CONFIGURE is refused (R224, R253). -/
theorem exec_of_closed {s : State} (h : s.Closed) {i : Instr}
    (hi : ∀ ib bsw assoc pred, i ≠ .configure ib bsw assoc pred) :
    exec i s = .next { s with response := some .refused } := by
  obtain ⟨ib, bsw, assoc, pred, hconfigure⟩ | hparse | ⟨f, hf⟩ := exec_cases i
  · exact absurd hconfigure (hi ib bsw assoc pred)
  · rw [hparse, State.parseError_of_closed h]
  · rw [hf, State.onInstance_of_closed _ h]

/-- Settles O11. -/
theorem closedStateRefusesAllButConfigure : Obligations.ClosedStateRefusesAllButConfigure := by
  intro s w rest hclosed hpending hword
  have hclosed' : State.Closed { s with pending := rest } := hclosed
  cases hdecode : decode w with
  | ok i =>
    rw [step_of_decodes hpending hdecode, exec_of_closed hclosed']
    rintro ib bsw assoc pred rfl
    exact hword ib bsw assoc pred hdecode
  | error e => rw [step_of_illFormed hpending hdecode, State.parseError_of_closed hclosed']

/-! Parameters and port. -/

section
variable (s : State)

theorem State.parseError_frame : s.parseError.pending = s.pending ∧ s.parseError.params = s.params := by
  obtain ⟨c, hfatal, hinst⟩ | hclosed := s.running_or_closed
  · rw [State.parseError_of_running hfatal hinst]
    exact ⟨rfl, rfl⟩
  · rw [State.parseError_of_closed hclosed]
    exact ⟨rfl, rfl⟩

theorem State.onInstance_frame (f : Instance → Instance × Response) :
    (s.onInstance f).pending = s.pending ∧ (s.onInstance f).params = s.params := by
  obtain ⟨c, hfatal, hinst⟩ | hclosed := s.running_or_closed
  · rw [State.onInstance_of_running f hfatal hinst]
    exact ⟨rfl, rfl⟩
  · rw [State.onInstance_of_closed f hclosed]
    exact ⟨rfl, rfl⟩

theorem State.construct_frame (g : Cfg) : (s.construct g).pending = s.pending ∧ (s.construct g).params = s.params := by
  cases hlegal : Cfg.legal s.params g with
  | true =>
    rw [State.construct_of_legal hlegal]
    exact ⟨rfl, rfl⟩
  | false =>
    rw [State.construct_of_illegal hlegal]
    exact ⟨rfl, rfl⟩

/-- No command writes the parameters or takes a word (R8, R9). -/
theorem exec_frame (i : Instr) : ∃ t, exec i s = .next t ∧ t.pending = s.pending ∧ t.params = s.params := by
  obtain ⟨ib, bsw, assoc, pred, rfl⟩ | hparse | ⟨f, hf⟩ := exec_cases i
  · exact ⟨_, exec_configure ib bsw assoc pred s, s.construct_frame _⟩
  · exact ⟨_, hparse s, s.parseError_frame⟩
  · exact ⟨_, hf s, s.onInstance_frame _⟩

variable (ws : List CommandWord) (r : Option Response)

theorem State.parseError_withPort : State.parseError { s with pending := ws, response := r }
    = { s.parseError with pending := ws } := by
  obtain ⟨c, hfatal, hinst⟩ | hclosed := s.running_or_closed
  · rw [State.parseError_of_running hfatal hinst,
      State.parseError_of_running (s := { s with pending := ws, response := r }) hfatal hinst]
  · rw [State.parseError_of_closed hclosed,
      State.parseError_of_closed (s := { s with pending := ws, response := r }) hclosed]

theorem State.onInstance_withPort (f : Instance → Instance × Response) :
    State.onInstance { s with pending := ws, response := r } f = { s.onInstance f with pending := ws } := by
  obtain ⟨c, hfatal, hinst⟩ | hclosed := s.running_or_closed
  · rw [State.onInstance_of_running f hfatal hinst,
      State.onInstance_of_running (s := { s with pending := ws, response := r }) f hfatal hinst]
  · rw [State.onInstance_of_closed f hclosed,
      State.onInstance_of_closed (s := { s with pending := ws, response := r }) f hclosed]

theorem State.construct_withPort (g : Cfg) : State.construct { s with pending := ws, response := r } g
    = { s.construct g with pending := ws } := by
  cases hlegal : Cfg.legal s.params g with
  | true =>
    rw [State.construct_of_legal hlegal,
      State.construct_of_legal (s := { s with pending := ws, response := r }) hlegal]
  | false =>
    rw [State.construct_of_illegal hlegal,
      State.construct_of_illegal (s := { s with pending := ws, response := r }) hlegal]

end

/-- Settles O10. -/
theorem everyStepAnswersNextState : Obligations.EveryStepAnswersNextState := by
  intro s
  cases hpending : s.pending with
  | nil => exact ⟨s, step_of_noWord hpending, hpending, rfl⟩
  | cons w rest =>
    cases hdecode : decode w with
    | ok i =>
      rw [step_of_decodes hpending hdecode]
      exact exec_frame _ i
    | error e =>
      exact ⟨_, step_of_illFormed hpending hdecode, State.parseError_frame { s with pending := rest }⟩

/-- Settles O12. -/
theorem commandsIgnoreThePort : Obligations.CommandsIgnoreThePort := by
  intro i s ws r
  obtain ⟨ib, bsw, assoc, pred, rfl⟩ | hparse | ⟨f, hf⟩ := exec_cases i
  · exact ⟨_, exec_configure .., by rw [exec_configure, State.construct_withPort]⟩
  · exact ⟨_, hparse s, by rw [hparse, State.parseError_withPort]⟩
  · exact ⟨_, hf s, by rw [hf, State.onInstance_withPort]⟩

/-! CONFIGURE. -/

/-- Settles O13. -/
theorem resetIsUnconfigured : Obligations.ResetIsUnconfigured := ⟨rfl, rfl⟩

/-- Settles O14. -/
theorem configureBuildsFreshInstance : Obligations.ConfigureBuildsFreshInstance := by
  intro s ib bsw assoc pred hbsw hassoc hbits hcapacity
  have hlegal : Cfg.legal s.params ⟨ib, bsw, assoc, pred⟩ = true :=
    (Cfg.legal_iff _ _).mpr ⟨⟨hbsw, hassoc, hbits⟩, hcapacity⟩
  refine ⟨freshInstance ⟨ib, bsw, assoc, pred⟩, ?_, rfl, fun j => rfl, rfl, rfl⟩
  rw [exec_configure, State.construct_of_legal hlegal]

/-- Settles O15: each of the four conditions contradicts legality. -/
theorem configureOutOfRangeIsFatal : Obligations.ConfigureOutOfRangeIsFatal := by
  intro s ib bsw assoc pred hbad
  have hillegal : Cfg.legal s.params ⟨ib, bsw, assoc, pred⟩ = false := by
    rw [Bool.eq_false_iff, ne_eq, Cfg.legal_iff]
    rintro ⟨⟨hbsw, hassoc, hbits⟩, hcapacity⟩
    obtain h | h | h | h := hbad
    · exact absurd hbsw (Nat.not_le.mpr h)
    · exact absurd hassoc (Nat.not_le.mpr h)
    · exact absurd hbits (Nat.not_le.mpr h)
    · exact absurd hcapacity (Nat.not_le.mpr h)
  refine ⟨_, exec_configure ib bsw assoc pred s, ?_⟩
  rw [State.construct_of_illegal hillegal]
  exact ⟨rfl, rfl, rfl, rfl⟩

/-! The rates. -/

/-- A rate times its denominator is its numerator (R236). -/
theorem rate_mul_of_ne_zero {n d : Nat} (hd : d ≠ 0) : rate n d * (d : ℚ) = (n : ℚ) := by
  rw [rate, if_neg hd, div_mul_cancel₀ _ (Nat.cast_ne_zero.mpr hd)]

/-- Settles O52. -/
theorem ratesAreExactOrZero : Obligations.RatesAreExactOrZero := fun _ =>
  ⟨Counters.missRate_of_noAccess, rate_mul_of_ne_zero, Counters.cpi_of_noRetirement, rate_mul_of_ne_zero⟩

end Sys2Proof.Machine

/-! PROOF. The invariant (40_cache.md R125, 10_state.md R34 and R45): every command is made of lookups, of the two
bodies of ADVANCE, of insertions and of construction, and each of these keeps it. -/

namespace Sys2Proof.Machine

/-! What commands on a running block keep, packaged once. -/

/-- What ADVANCE, the command's lookup and the insertion of a slot with its mandatory operands keep, every command but
CONFIGURE keeps. -/
theorem exec_induction {P : Instance → Prop} {s : State} {c : Instance} (h : s.Running c)
    (hadvance : ∀ d, P d → P (d.advance s.params)) (hinsert : ∀ d x, x.mandatoryPresent = true → P d → P (d.insert x))
    (hlookup : ∀ addr, P (c.lookup addr)) (hc : P c) {i : Instr} (hconf : notConfigure i = true)
    (hpresent : i.mandatoryPresent = true) :
    ∃ c' r, exec i s = .next { s with inst := some c', response := some r } ∧ P c' := by
  by_cases hreaches : ∃ addr, i = .lookup addr ∨ i = .fetchAccess addr
  · obtain ⟨addr, rfl | rfl⟩ := hreaches
    · exact ⟨_, _, exec_lookup_of_running h addr, hlookup addr⟩
    · exact ⟨_, _, exec_fetchAccess_of_running h addr, Instance.fetchAccess_induction hadvance (hlookup addr)⟩
  · have hother : ∀ addr, i ≠ .lookup addr ∧ i ≠ .fetchAccess addr := by simpa using hreaches
    obtain ⟨x, hx, rfl⟩ | rfl | rfl := Instr.process_or_advance_or_finalize hconf hpresent hother
    · exact ⟨_, _, exec_processCommand_of_running h hx, hinsert _ x hx (hadvance c hc)⟩
    · exact ⟨_, _, exec_advance_of_running h, hadvance c hc⟩
    · exact ⟨_, _, exec_finalize_of_running h, Instance.finalize_induction hadvance hc⟩

/-- A command that lacks a mandatory operand is a PROCESS command without it. -/
theorem Instr.processCommand_of_absent {i : Instr} (h : i.mandatoryPresent = false) :
    ∃ x : Slot, x.mandatoryPresent = false ∧ i = x.processCommand := by
  cases i with
  | processRtype addr dest src1 src2 => exact ⟨.rtype addr dest src1 src2, h, rfl⟩
  | processLoad addr dest base => exact ⟨.load addr dest base, h, rfl⟩
  | processStore addr src base => exact ⟨.store addr src base, h, rfl⟩
  | processNop | processBranch | processJump | processSyscall | lookup | advance | fetchAccess | finalize | configure =>
    simp [Instr.mandatoryPresent] at h

theorem exec_of_absent {i : Instr} (h : i.mandatoryPresent = false) (s : State) : exec i s = .next s.parseError := by
  obtain ⟨x, hx, rfl⟩ := Instr.processCommand_of_absent h
  rw [exec_processCommand, State.process_of_absent hx]

/-- A ParseError, raised or refused, leaves the instance as it was (R222, R225). -/
@[simp] theorem State.parseError_inst (s : State) : s.parseError.inst = s.inst := by
  obtain ⟨c, hfatal, hinst⟩ | hclosed := s.running_or_closed
  · rw [State.parseError_of_running hfatal hinst]
  · rw [State.parseError_of_closed hclosed]

/-- Settles O41. -/
theorem processWithoutMandatoryOperandIsParseError : Obligations.ProcessWithoutMandatoryOperandIsParseError := by
  rintro s c addr x y ⟨hfatal, hinst⟩
  have key : ∀ i : Instr, i.mandatoryPresent = false →
      exec i s = .next { s with fatal := some .parseError, response := some (.fatal .parseError) } := fun i hi => by
    rw [exec_of_absent hi, State.parseError_of_running hfatal hinst]
  exact ⟨key _ rfl, key _ rfl, key _ rfl⟩

/-- `notConfigure` says what its name says. -/
theorem Instr.ne_configure {i : Instr} (h : notConfigure i = true) (ib bsw assoc : Nat) (pred : Prediction) :
    i ≠ .configure ib bsw assoc pred := by
  rintro rfl
  exact absurd h Bool.false_ne_true

theorem Instr.configure_of_notConfigure_false {i : Instr} (h : notConfigure i = false) :
    ∃ ib bsw assoc pred, i = .configure ib bsw assoc pred := by
  cases i with
  | configure ib bsw assoc pred => exact ⟨ib, bsw, assoc, pred, rfl⟩
  | processNop | processRtype | processLoad | processStore | processBranch | processJump | processSyscall | lookup
  | advance | fetchAccess | finalize => exact absurd h.symm Bool.false_ne_true

/-- In every state a command other than CONFIGURE leaves an instance with what it has, if the parts of commands keep
it. -/
theorem exec_inst_induction {P : Instance → Prop} {s : State} (hadvance : ∀ d, P d → P (d.advance s.params))
    (hinsert : ∀ d x, x.mandatoryPresent = true → P d → P (d.insert x)) (hlookup : ∀ d addr, P d → P (d.lookup addr))
    {c : Instance} (hinst : s.inst = some c) (hc : P c) {i : Instr} (hconf : notConfigure i = true) :
    ∃ t c', exec i s = .next t ∧ t.inst = some c' ∧ P c' := by
  cases hpresent : i.mandatoryPresent with
  | false => exact ⟨_, c, exec_of_absent hpresent s, by rw [State.parseError_inst, hinst], hc⟩
  | true =>
    obtain ⟨d, hrun⟩ | hclosed := s.running_or_closed
    · obtain rfl : c = d := Option.some.inj (hinst.symm.trans hrun.2)
      obtain ⟨c', r, hexec, hc'⟩ :=
        exec_induction hrun hadvance hinsert (fun addr => hlookup c addr hc) hc hconf hpresent
      exact ⟨_, c', hexec, rfl, hc'⟩
    · exact ⟨_, c, exec_of_closed hclosed (Instr.ne_configure hconf), hinst, hc⟩

/-! The counters. -/

section
variable {k : Counters}

theorem CountersInv.zero : CountersInv Counters.zero := ⟨rfl, le_rfl, le_rfl⟩

/-- A LOOKUP counts one access and one of hit and miss. -/
theorem CountersInv.countLookup (h : CountersInv k) (hit : Bool) : CountersInv (k.countLookup hit) := by
  have haccess := h.access_eq
  refine ⟨?_, h.correct_le, h.retired_le⟩
  cases hit
  · change k.cacheAccess + 1 = k.cacheHit + 0 + (k.cacheMiss + 1)
    omega
  · change k.cacheAccess + 1 = k.cacheHit + 1 + (k.cacheMiss + 0)
    omega

/-- A correct branch is a branch. -/
theorem CountersInv.countBranch (h : CountersInv k) (p : Prediction) (b : Bank) : CountersInv (k.countBranch p b) := by
  have hcorrect := h.correct_le
  have hboth : (branchInDecode b && branchPredicted p b).toNat ≤ (branchInDecode b).toNat :=
    Bool.toNat_le_toNat fun h => (Bool.and_eq_true_iff.mp h).1
  refine ⟨h.access_eq, ?_, h.retired_le⟩
  simp only [Counters.countBranch_correctBranchCount, Counters.countBranch_branchCount]
  omega

/-- A body retires at most one instruction in its cycle. -/
theorem CountersInv.countBody (h : CountersInv k) (x : Slot) : CountersInv (k.countRetirement x).countCycle := by
  have hretired := h.retired_le
  have hone := x.counts.toNat_le
  refine ⟨h.access_eq, h.correct_le, ?_⟩
  simp only [Counters.countCycle_retiredCount, Counters.countRetirement_retiredCount, Counters.countCycle_cycleCount,
    Counters.countRetirement_cycleCount]
  omega

end

/-! The slots. -/

/-- Every slot of the bank has its mandatory operands (R34). -/
def Bank.Present (b : Bank) : Prop := ∀ x ∈ b.slots, x.mandatoryPresent = true

theorem Bank.Present.shift {b : Bank} (h : b.Present) : b.shift.Present := by
  intro x hx
  rw [Bank.shift_slots] at hx
  obtain rfl | hx := List.mem_cons.mp (List.mem_of_mem_take hx)
  · rfl
  · exact h x hx

theorem Bank.Present.insert {b : Bank} (h : b.Present) {y : Slot} (hy : y.mandatoryPresent = true) :
    (b.insert y).Present := by
  intro x hx
  obtain rfl | hx := List.mem_cons.mp (show x ∈ y :: b.slots.tail from hx)
  · exact hy
  · exact h x (List.mem_of_mem_tail hx)

/-! The instance. -/

section
variable {p : Params} {c d : Instance}

/-- What is the same, keeps its part of the invariant. -/
theorem Instance.Inv.of_sameSets (h : c.Inv p) (hcfg : d.cfg = c.cfg) (hsets : d.sets = c.sets)
    (hslots : d.bank.Present) (hcounters : CountersInv d.ctr) : d.Inv p where
  legal := by rw [hcfg]; exact h.legal
  canonical := by rw [hcfg, hsets]; exact h.canonical
  indices := by rw [hcfg, hsets]; exact h.indices
  set_inv := by rw [hcfg]; unfold Instance.set; rw [hcfg, hsets]; exact h.set_inv
  slots := hslots
  counters := hcounters

theorem Instance.Inv.quietBody (h : c.Inv p) : c.retire.tickAndShift.Inv p :=
  h.of_sameSets rfl rfl (Bank.Present.shift h.slots) (h.counters.countBody _)

theorem Instance.Inv.detectingBody (h : c.Inv p) : c.retire.detect.2.tickAndShift.Inv p :=
  h.of_sameSets rfl rfl (Bank.Present.shift h.slots) (((h.counters.countBody _).countBranch _ _))

theorem Instance.Inv.advance (h : c.Inv p) (q : Params) : (c.advance q).Inv p :=
  Instance.advance_induction (fun _ hd => hd.quietBody) (fun _ hd => hd.detectingBody) q h

theorem Instance.Inv.insert (h : c.Inv p) {x : Slot} (hx : x.mandatoryPresent = true) : (c.insert x).Inv p :=
  h.of_sameSets rfl rfl (Bank.Present.insert h.slots hx) h.counters

/-- LOOKUP writes one set, by a lookup in it, and counts. -/
theorem Instance.Inv.lookup (h : c.Inv p) (addr : Addr) : (c.lookup addr).Inv p where
  legal := h.legal
  canonical := writeSet_canonical h.canonical
  indices := by
    intro e he
    obtain rfl | hold := mem_writeSet he
    · exact c.cfg.index_lt addr
    · exact h.indices e hold
  set_inv := by
    intro i
    by_cases hi : i = c.cfg.index addr
    · subst hi
      rw [Instance.set_lookup_same h.canonical]
      exact (h.set_inv _).lookupSet h.associativity_pos (h.tag_lt addr)
    · rw [c.set_lookup_other hi]
      exact h.set_inv i
  slots := h.slots
  counters := h.counters.countLookup _

/-- The instance of an accepted CONFIGURE has the invariant. -/
theorem Instance.Inv.freshInstance {g : Cfg} (hlegal : Cfg.legal p g = true) : (freshInstance g).Inv p where
  legal := hlegal
  canonical := setsCanonical_nil _
  indices := fun _ he => absurd he List.not_mem_nil
  set_inv := fun _ => SetInv.freshSet g
  slots := fun _ hx => by rw [List.eq_of_mem_replicate (n := 5) hx]; rfl
  counters := CountersInv.zero

end

/-! The machine. -/

/-- Settles O55. -/
theorem resetHasInvariant : Obligations.ResetHasInvariant where
  penalty := Nat.le_add_left 1 _
  inst_inv := fun _ hinst => absurd hinst.symm (Option.some_ne_none _)

/-- The invariant speaks of the parameters and the instance only. -/
theorem State.Inv.of_same {s t : State} (h : s.Inv) (hparams : t.params = s.params) (hinst : t.inst = s.inst) :
    t.Inv := by
  obtain ⟨hpenalty, hinv⟩ := h
  exact ⟨hparams ▸ hpenalty, fun c hc => hparams ▸ hinv c (hinst ▸ hc)⟩

theorem State.Inv.parseError {s : State} (h : s.Inv) : s.parseError.Inv :=
  h.of_same s.parseError_frame.2 s.parseError_inst

theorem State.Inv.construct {s : State} (h : s.Inv) (g : Cfg) : (s.construct g).Inv := by
  cases hlegal : Cfg.legal s.params g with
  | true =>
    rw [State.construct_of_legal hlegal]
    exact ⟨h.penalty, fun c hc => Option.some.inj hc ▸ Instance.Inv.freshInstance hlegal⟩
  | false =>
    rw [State.construct_of_illegal hlegal]
    exact ⟨h.penalty, fun c hc => absurd hc.symm (Option.some_ne_none c)⟩

/-- Every command keeps the invariant. -/
theorem State.Inv.exec {s t : State} (h : s.Inv) {i : Instr} (hexec : exec i s = .next t) : t.Inv := by
  cases hconf : notConfigure i with
  | false =>
    obtain ⟨ib, bsw, assoc, pred, rfl⟩ := Instr.configure_of_notConfigure_false hconf
    obtain rfl := Host.Outcome.next.inj hexec
    exact h.construct _
  | true =>
    cases hinst : s.inst with
    | none =>
      rw [exec_of_closed (.inr hinst) (Instr.ne_configure hconf)] at hexec
      obtain rfl := Host.Outcome.next.inj hexec
      exact h.of_same rfl rfl
    | some c =>
      obtain ⟨u, c', hu, hc', hinv⟩ := exec_inst_induction (P := Instance.Inv s.params)
        (fun d hd => hd.advance s.params) (fun d x hx hd => hd.insert hx) (fun d addr hd => hd.lookup addr) hinst
        (h.inst_inv c hinst) hconf
      obtain ⟨v, hv, -, hparams⟩ := exec_frame s i
      obtain rfl : u = t := Host.Outcome.next.inj (hu.symm.trans hexec)
      obtain rfl : v = u := Host.Outcome.next.inj (hv.symm.trans hexec)
      refine ⟨hparams ▸ h.penalty, fun e he => ?_⟩
      rw [hparams, ← Option.some.inj (hc'.symm.trans he)]
      exact hinv

/-- Settles O54: an idle step changes nothing, and the words at the port are no part of the invariant. -/
theorem stepKeepsInvariant : Obligations.StepKeepsInvariant := by
  intro s t h hstep
  cases hpending : s.pending with
  | nil =>
    rw [step_of_noWord hpending] at hstep
    exact Host.Outcome.next.inj hstep ▸ h
  | cons w rest =>
    have h' : State.Inv { s with pending := rest } := h.of_same rfl rfl
    cases hdecode : decode w with
    | ok i =>
      rw [step_of_decodes hpending hdecode] at hstep
      exact h'.exec hstep
    | error e =>
      rw [step_of_illFormed hpending hdecode] at hstep
      exact Host.Outcome.next.inj hstep ▸ h'.parseError

end Sys2Proof.Machine

/-! PROOF. The counters between two CONFIGUREs (10_state.md R45): every count adds to a counter or leaves it alone. -/

namespace Sys2Proof.Machine

/-- Every counter of `k` is at least that of `j`. -/
structure Counters.Le (j k : Counters) : Prop where
  cacheAccess : j.cacheAccess ≤ k.cacheAccess
  cacheHit : j.cacheHit ≤ k.cacheHit
  cacheMiss : j.cacheMiss ≤ k.cacheMiss
  cycleCount : j.cycleCount ≤ k.cycleCount
  retiredCount : j.retiredCount ≤ k.retiredCount
  branchCount : j.branchCount ≤ k.branchCount
  correctBranchCount : j.correctBranchCount ≤ k.correctBranchCount

section
variable {j k : Counters}

theorem Counters.Le.refl (k : Counters) : k.Le k := ⟨le_rfl, le_rfl, le_rfl, le_rfl, le_rfl, le_rfl, le_rfl⟩

theorem Counters.Le.countLookup (h : j.Le k) (hit : Bool) : j.Le (k.countLookup hit) :=
  { h with
    cacheAccess := Nat.le_add_right_of_le h.cacheAccess
    cacheHit := Nat.le_add_right_of_le h.cacheHit
    cacheMiss := Nat.le_add_right_of_le h.cacheMiss }

theorem Counters.Le.countRetirement (h : j.Le k) (x : Slot) : j.Le (k.countRetirement x) :=
  { h with retiredCount := Nat.le_add_right_of_le h.retiredCount }

theorem Counters.Le.countCycle (h : j.Le k) : j.Le k.countCycle :=
  { h with cycleCount := Nat.le_add_right_of_le h.cycleCount }

theorem Counters.Le.countBranch (h : j.Le k) (p : Prediction) (b : Bank) : j.Le (k.countBranch p b) :=
  { h with
    branchCount := Nat.le_add_right_of_le h.branchCount
    correctBranchCount := Nat.le_add_right_of_le h.correctBranchCount }

/-- Both bodies of ADVANCE count a retirement and a cycle, the detecting one a branch too. -/
theorem Counters.Le.advance {d : Instance} (h : j.Le d.ctr) (p : Params) : j.Le (d.advance p).ctr :=
  Instance.advance_induction (P := fun d => j.Le d.ctr) (fun _ hd => (hd.countRetirement _).countCycle)
    (fun _ hd => ((hd.countRetirement _).countBranch _ _).countCycle) p h

end

/-- Settles O51. -/
theorem countersOnlyGrow : Obligations.CountersOnlyGrow := by
  intro s c i hinst hconf
  obtain ⟨t, c', hexec, hinst', hle⟩ := exec_inst_induction (P := fun d => c.ctr.Le d.ctr)
    (fun _ hd => hd.advance s.params) (fun _ _ _ hd => hd) (fun _ _ hd => hd.countLookup _) hinst
    (Counters.Le.refl c.ctr) hconf
  exact ⟨t, c', hexec, hinst', hle.cacheAccess, hle.cacheHit, hle.cacheMiss, hle.cycleCount, hle.retiredCount,
    hle.branchCount, hle.correctBranchCount⟩

end Sys2Proof.Machine

/-! PROOF. How many stall units DETECT can answer (41_hazard_detector.md R148): a branch unit, and one for the pair in
MEM and ALU; and which of them a bank without certain slots rules out. -/

namespace Sys2Proof.Machine

/-- The two register checks together: a pair in MEM and ALU stalls. -/
def pairStalls (b : Bank) : Bool := loadUse b || storeDependency b

/-- MEM holds one kind, so the pair costs one unit (R148). -/
theorem stallCount_eq_branch_add_pair (p : Prediction) (b : Bank) :
    stallCount p b = (branchInDecode b && !branchPredicted p b).toNat + (pairStalls b).toNat := by
  have hone : (loadUse b).toNat + (storeDependency b).toNat = (pairStalls b).toNat := by
    cases hmem : b.mem with
    | load la dest base => simp [pairStalls, storeDependency_of_load hmem]
    | store sa src base => simp [pairStalls, loadUse_of_store hmem]
    | nop | rtype | branch | jump | syscall => simp [pairStalls, loadUse, storeDependency, hmem]
  rw [stallCount, Nat.add_assoc, hone]

/-- The pairs of R144 and R146. -/
theorem pairStalls_iff {b : Bank} : pairStalls b = true ↔
    ∃ ra rd s1 s2 r, b.alu = .rtype ra rd s1 s2
      ∧ ((∃ la base, b.mem = .load la (some r) base ∧ (s1 = some r ∨ s2 = some r))
        ∨ ∃ sa src, b.mem = .store sa src (some r) ∧ rd = some r) := by
  cases hmem : b.mem with
  | load la dest base =>
    rw [pairStalls, storeDependency_of_load hmem, Bool.or_false, loadUse_iff hmem]
    simp [and_assoc]
  | store sa src base =>
    rw [pairStalls, loadUse_of_store hmem, Bool.false_or, storeDependency_iff hmem]
    simp only [reduceCtorEq, false_and, exists_false, false_or, Slot.store.injEq]
    constructor
    · rintro ⟨ra, rd, s1, s2, r, halu, hbase, hdest⟩
      exact ⟨ra, rd, s1, s2, r, halu, sa, src, ⟨rfl, rfl, hbase⟩, hdest⟩
    · rintro ⟨ra, rd, s1, s2, r, halu, _, _, ⟨-, -, hbase⟩, hdest⟩
      exact ⟨ra, rd, s1, s2, r, halu, hbase, hdest⟩
  | nop | rtype | branch | jump | syscall => simp [pairStalls, loadUse, storeDependency, hmem]

theorem stallCount_le_two (p : Prediction) (b : Bank) : stallCount p b ≤ 2 := by
  rw [stallCount_eq_branch_add_pair]
  exact Nat.add_le_add (Bool.toNat_le _) (Bool.toNat_le _)

/-- Two units are one of each. -/
theorem stallCount_eq_two_iff {p : Prediction} {b : Bank} : stallCount p b = 2 ↔
    (branchInDecode b = true ∧ branchPredicted p b = false) ∧ pairStalls b = true := by
  rw [stallCount_eq_branch_add_pair]
  cases branchInDecode b <;> cases branchPredicted p b <;> cases pairStalls b <;> decide

/-- Settles O30. -/
theorem stallCountIsAtMostTwo : Obligations.StallCountIsAtMostTwo := by
  intro p b
  refine ⟨stallCount_le_two p b, ?_⟩
  rw [stallCount_eq_two_iff, pairStalls_iff, branchInDecode_iff]
  refine and_congr_left fun _ => ?_
  constructor
  · rintro ⟨⟨addr, hbranch⟩, hwrong⟩
    refine ⟨addr, hbranch, ?_⟩
    rw [← branchPredicted_iff hbranch, hwrong]
    exact Bool.false_ne_true
  · rintro ⟨addr, hbranch, hwrong⟩
    rw [← branchPredicted_iff hbranch, Bool.not_eq_true] at hwrong
    exact ⟨⟨addr, hbranch⟩, hwrong⟩

/-! Banks without the slots a check needs. -/

section
variable {b : Bank} {k : Nat}

/-- Below FETCH there is no stage. -/
theorem Bank.emptyBelow_zero (b : Bank) : b.EmptyBelow 0 := fun _ hstage => absurd hstage (Nat.not_lt_zero _)

/-- With DECODE EMPTY no branch check fires (R140). -/
theorem Bank.EmptyBelow.branchInDecode (h : b.EmptyBelow k) (hk : 2 ≤ k) : branchInDecode b = false := by
  have hdecode : b.decode = Slot.empty := h .decode (Nat.lt_of_lt_of_le (by decide) hk)
  rw [Machine.branchInDecode, hdecode]
  rfl

/-- With no RTYPE in ALU no pair stalls (R144, R146). -/
theorem pairStalls_of_alu (h : ∀ ra rd s1 s2, b.alu ≠ .rtype ra rd s1 s2) : pairStalls b = false := by
  rw [Bool.eq_false_iff, ne_eq, pairStalls_iff]
  rintro ⟨ra, rd, s1, s2, r, halu, -⟩
  exact h ra rd s1 s2 halu

/-- With ALU EMPTY no pair stalls. -/
theorem Bank.EmptyBelow.pairStalls (h : b.EmptyBelow k) (hk : 3 ≤ k) : pairStalls b = false := by
  have halu : b.alu = Slot.empty := h .alu (Nat.lt_of_lt_of_le (by decide) hk)
  refine pairStalls_of_alu fun ra rd s1 s2 hrtype => ?_
  rw [halu] at hrtype
  exact Slot.noConfusion hrtype

/-- With DECODE EMPTY at most the pair stalls. -/
theorem Bank.EmptyBelow.stallCount (h : b.EmptyBelow k) (hk : 2 ≤ k) (p : Prediction) :
    stallCount p b = (Machine.pairStalls b).toNat := by
  simp [stallCount_eq_branch_add_pair, h.branchInDecode hk]

/-- With ALU EMPTY too nothing stalls. -/
theorem Bank.EmptyBelow.stallCount_eq_zero (h : b.EmptyBelow k) (hk : 3 ≤ k) (p : Prediction) :
    Machine.stallCount p b = 0 := by
  rw [h.stallCount (by omega), h.pairStalls hk, Bool.toNat_false]

/-- A BRANCH that moves on from DECODE leaves no pair behind it. -/
theorem pairStalls_shift_of_branch (h : branchInDecode b = true) : pairStalls b.shift = false := by
  obtain ⟨addr, hbranch⟩ := branchInDecode_iff.mp h
  refine pairStalls_of_alu fun ra rd s1 s2 hrtype => ?_
  rw [Bank.shift_alu, hbranch] at hrtype
  exact Slot.noConfusion hrtype

end

end Sys2Proof.Machine

/-! PROOF. ADVANCE (42_pipeline_driver.md R160 to R166): one body and its replays, under both policies, and what that
makes of the bank and of the counters. -/

namespace Sys2Proof.Machine

/-- ADVANCE_BODY without detection: what a replay is under the canonical policy (R163). -/
def Instance.quietBody (c : Instance) : Instance := c.retire.tickAndShift

/-- DETECT counts nothing where no BRANCH stands in DECODE, so the two bodies are one there. -/
theorem Instance.detectingBody_of_noBranch {c : Instance} (h : branchInDecode c.bank = false) :
    c.retire.detect.2.tickAndShift = c.quietBody := by
  have hdetect : c.retire.detect.2 = c.retire := by
    rw [Instance.detect, Instance.retire_bank, Counters.countBranch_of_noBranch _ _ h]
    rfl
  rw [hdetect]
  rfl

theorem Instance.advanceBody_of_not_detects (r : Bool) (depth : Nat) (c : Instance) :
    c.advanceBody r depth false = c.quietBody := by
  cases depth <;> rfl

theorem Instance.advanceBody_succ_detects (r : Bool) (depth : Nat) (c : Instance) :
    c.advanceBody r (depth + 1) true
      = (fun d => d.advanceBody r depth r)^[stallCount c.cfg.branchPrediction c.bank] c.retire.detect.2.tickAndShift :=
  repeatTimes_eq_iterate ..

/-- A body of ADVANCE with all its replays takes no EMPTY stage away. -/
theorem Instance.emptyBelow_advanceBody {c : Instance} {k : Nat} (h : c.bank.EmptyBelow k) (r : Bool) (depth : Nat)
    (detects : Bool) : (c.advanceBody r depth detects).bank.EmptyBelow k :=
  Instance.advanceBody_induction (P := fun d : Instance => d.bank.EmptyBelow k)
    (fun _ hd => hd.shift.mono (Nat.le_succ k)) (fun _ hd => hd.shift.mono (Nat.le_succ k)) r depth detects h

/-- Functions that agree where a property holds which they keep, agree when they are iterated. -/
theorem iterate_congr_of_invariant {α : Type} {P : α → Prop} {f g : α → α} (hfg : ∀ x, P x → f x = g x)
    (hf : ∀ x, P x → P (f x)) (n : Nat) {x : α} (hx : P x) : f^[n] x = g^[n] x := by
  induction n generalizing x with
  | zero => rfl
  | succ n ih => rw [Function.iterate_succ_apply, Function.iterate_succ_apply, ← hfg x hx, ih (hf x hx)]

/-- Detecting bodies nest no deeper than there are stages before ALU that are not EMPTY, so a greater bound on the depth
changes nothing (R166). -/
theorem Instance.advanceBody_depth {depth k : Nat} (hdepth : 3 ≤ k + depth) {c : Instance} (h : c.bank.EmptyBelow k) :
    c.advanceBody true (depth + 1) true = c.advanceBody true depth true := by
  induction depth generalizing k c with
  | zero =>
    rw [Instance.advanceBody_succ_detects, h.stallCount_eq_zero hdepth]
    exact Instance.detectingBody_of_noBranch (h.branchInDecode (by omega))
  | succ depth ih =>
    rw [Instance.advanceBody_succ_detects, Instance.advanceBody_succ_detects]
    have hfirst : c.retire.detect.2.tickAndShift.bank.EmptyBelow (k + 1) := h.shift
    exact iterate_congr_of_invariant (P := fun d : Instance => d.bank.EmptyBelow (k + 1))
      (fun d hd => ih (by omega) hd) (fun d hd => Instance.emptyBelow_advanceBody hd _ _ _) _ hfirst

/-- Settles O33: a canonical replay does not detect, and a detecting one starts with FETCH EMPTY, where one level of
nesting fewer is enough. -/
theorem advanceReplayPolicies : Obligations.AdvanceReplayPolicies := by
  intro p c
  have hfirst : c.retire.detect.2.tickAndShift.bank.EmptyBelow 1 :=
    c.bank.emptyBelow_zero.shift
  rw [Instance.advance, replayDepth, Instance.advanceBody_succ_detects]
  cases hpolicy : p.replayRedetect with
  | false => simp only [Instance.advanceBody_of_not_detects]; rfl
  | true =>
    refine iterate_congr_of_invariant (P := fun d : Instance => d.bank.EmptyBelow 1) (fun d hd => ?_)
      (fun d hd => Instance.emptyBelow_advanceBody hd _ _ _) _ hfirst
    rw [if_pos rfl, Instance.advance, hpolicy, replayDepth]
    exact (Instance.advanceBody_depth (depth := 3) (by omega) hd).symm

/-- Without a stall unit ADVANCE is its first body. -/
theorem Instance.advance_of_noStall {c : Instance} (p : Params) (h : stallCount c.cfg.branchPrediction c.bank = 0) :
    c.advance p = c.retire.detect.2.tickAndShift := by
  rw [advanceReplayPolicies p c, show c.retire.detect.1 = 0 from h]
  rfl

/-! The canonical policy. -/

/-- Repeated shifts put that many EMPTY slots in front (R165). -/
theorem Bank.shift_iterate_slots (m : Nat) (b : Bank) :
    (Bank.shift^[m] b).slots = (List.replicate m Slot.empty ++ b.slots).take Config.stages := by
  induction m with
  | zero => rfl
  | succ m ih =>
    rw [Function.iterate_succ_apply', Bank.shift_slots, ih, List.replicate_succ, List.cons_append,
      List.take_succ_cons, List.take_succ_cons, List.take_take, min_eq_left (Nat.le_succ _)]

/-- How many of the last `m` slots count when they leave the bank (R161). -/
def Bank.leaving (b : Bank) (m : Nat) : Nat := (b.slots.reverse.take m).countP (fun x => decide (x.addr ≠ 0#32))

theorem Slot.counts_eq_decide (x : Slot) : x.counts = decide (x.addr ≠ 0#32) := by
  simp [Slot.counts, bne, beq_eq_decide]

/-- First WRITEBACK leaves, then what stands behind it. -/
theorem Bank.leaving_succ (b : Bank) (m : Nat) : b.leaving (m + 1) = b.writeback.counts.toNat + b.shift.leaving m := by
  have hempty : ((List.take (m - 4) [Slot.empty]).countP (fun x => decide (x.addr ≠ 0#32))) = 0 := by
    refine List.countP_eq_zero.mpr fun x hx => ?_
    rw [List.mem_singleton.mp (List.mem_of_mem_take hx)]
    decide
  have hbefore : b.slots.reverse = b.writeback :: [b.mem, b.alu, b.decode, b.fetch] := rfl
  have hafter : b.shift.slots.reverse = [b.mem, b.alu, b.decode, b.fetch] ++ [Slot.empty] := rfl
  have hcounts : (if decide (b.writeback.addr ≠ 0#32) = true then 1 else 0) = b.writeback.counts.toNat := by
    rw [Slot.counts_eq_decide, Bool.toNat, Bool.cond_eq_ite]
  rw [Bank.leaving, Bank.leaving, hbefore, hafter, List.take_append, List.countP_append, List.take_succ_cons,
    List.countP_cons, hcounts, List.length_cons, List.length_cons, List.length_cons, List.length_cons, List.length_nil,
    hempty, Nat.add_zero, Nat.add_comm]

/-- Repeated quiet bodies, whole. -/
theorem Instance.quietBody_iterate (m : Nat) (c : Instance) :
    Instance.quietBody^[m] c = { c with
      bank := Bank.shift^[m] c.bank
      ctr := { c.ctr with
        cycleCount := c.ctr.cycleCount + m
        retiredCount := c.ctr.retiredCount + c.bank.leaving m } } := by
  induction m generalizing c with
  | zero => rfl
  | succ m ih =>
    rw [Function.iterate_succ_apply, ih, Function.iterate_succ_apply, Bank.leaving_succ]
    simp only [Instance.quietBody, Instance.tickAndShift_cfg, Instance.retire_cfg, Instance.tickAndShift_sets,
      Instance.retire_sets, Instance.tickAndShift_bank, Instance.retire_bank, Instance.tickAndShift_ctr,
      Instance.retire_ctr, Counters.countCycle, Counters.countRetirement]
    rw [Nat.add_assoc c.ctr.cycleCount, Nat.add_comm 1 m, Nat.add_assoc c.ctr.retiredCount]

/-- Under the canonical policy ADVANCE is one detection and then quiet bodies only: the first and one per stall unit. -/
theorem Instance.advance_of_canonical {p : Params} (hpolicy : p.replayRedetect = false) (c : Instance) :
    c.advance p = Instance.quietBody^[1 + c.detect.1] c.detect.2 := by
  rw [advanceReplayPolicies p c, hpolicy, Nat.add_comm, Function.iterate_succ_apply]
  rfl

/-- Settles O32. -/
theorem advanceWithQuietReplays : Obligations.AdvanceWithQuietReplays := by
  intro s c hrun hpolicy
  refine ⟨Bank.shift^[1 + c.detect.1] c.bank, ?_, Bank.shift_iterate_slots _ _⟩
  rw [exec_advance_of_running hrun, Instance.advance_of_canonical hpolicy, Instance.quietBody_iterate, Nat.add_assoc]
  rfl

/-! Branch evaluations. -/

/-- The BRANCHes evaluated and those still to reach DECODE's end. -/
def Instance.branches (c : Instance) : Nat := c.ctr.branchCount + c.bank.branchesAhead

/-- A BRANCH in DECODE leaves it with a shift, and no other does (R165). -/
theorem Bank.branchesAhead_shift (b : Bank) :
    b.shift.branchesAhead + (branchInDecode b).toNat = b.branchesAhead := by
  have hbranch : ∀ x : Slot, (if decide (x.kind = .branch) = true then 1 else 0) = (x.kind == .branch).toNat := by
    intro x
    cases x <;> rfl
  have hempty : (Slot.empty.kind == .branch).toNat = 0 := rfl
  simp only [Bank.branchesAhead, branchInDecode, List.countP_cons, List.countP_nil, hbranch, Bank.shift_fetch,
    Bank.shift_decode, hempty]
  omega

/-- The detecting body evaluates the BRANCH that leaves DECODE (R140). -/
theorem Instance.branches_detectingBody (c : Instance) : c.retire.detect.2.tickAndShift.branches = c.branches := by
  have hshift := c.bank.branchesAhead_shift
  simp only [Instance.branches, Instance.tickAndShift_ctr, Instance.tickAndShift_bank, Instance.detect_ctr,
    Instance.detect_bank, Instance.retire_bank, Instance.retire_ctr, Counters.countCycle_branchCount,
    Counters.countBranch_branchCount, Counters.countRetirement_branchCount]
  omega

/-- The quiet body lets it go. -/
theorem Instance.branches_quietBody_le (c : Instance) : c.retire.tickAndShift.branches ≤ c.branches := by
  have hshift := c.bank.branchesAhead_shift
  simp only [Instance.branches, Instance.tickAndShift_ctr, Instance.tickAndShift_bank, Instance.retire_bank,
    Instance.retire_ctr, Counters.countCycle_branchCount, Counters.countRetirement_branchCount]
  omega

/-- What detecting bodies keep, ADVANCE_BODY keeps under REPLAY_REDETECT: the body at the bound of the depth is quiet,
but has no BRANCH to evaluate. -/
theorem Instance.advanceBody_redetect_induction {P : Instance → Prop}
    (detecting : ∀ c, P c → P c.retire.detect.2.tickAndShift) {depth k : Nat} (hdepth : 2 ≤ k + depth) {c : Instance}
    (h : c.bank.EmptyBelow k) (hc : P c) : P (c.advanceBody true depth true) := by
  induction depth generalizing k c with
  | zero =>
    have hbody := detecting c hc
    rwa [Instance.detectingBody_of_noBranch (h.branchInDecode hdepth)] at hbody
  | succ depth ih =>
    have hreplay : ∀ d : Instance, P d ∧ d.bank.EmptyBelow (k + 1) →
        P (d.advanceBody true depth true) ∧ (d.advanceBody true depth true).bank.EmptyBelow (k + 1) :=
      fun d ⟨hd, hempty⟩ => ⟨ih (by omega) hempty hd, Instance.emptyBelow_advanceBody hempty _ _ _⟩
    exact (repeatTimes_induction hreplay _ (x := c.retire.detect.2.tickAndShift) ⟨detecting c hc, h.shift⟩).1

/-- Settles O34. -/
theorem branchesAreEvaluatedAtMostOnce : Obligations.BranchesAreEvaluatedAtMostOnce := by
  intro s c hrun
  refine ⟨c.advance s.params, exec_advance_of_running hrun, ?atMostOnce, fun hpolicy => ?exactlyOnce⟩
  case atMostOnce =>
    exact Instance.advance_induction (P := fun d => d.branches ≤ c.branches)
      (fun d hd => d.branches_quietBody_le.trans hd) (fun d hd => d.branches_detectingBody.trans_le hd) s.params le_rfl
  case exactlyOnce =>
    rw [Instance.advance, hpolicy]
    exact Instance.advanceBody_redetect_induction (P := fun d => d.branches = c.branches)
      (fun d hd => d.branches_detectingBody.trans hd) (by decide) c.bank.emptyBelow_zero rfl

/-! An all-EMPTY bank. -/

theorem Bank.eq_empty_iff {b : Bank} : b = Bank.empty ↔ b.slots = List.replicate 5 (Slot.nop 0#32) :=
  ⟨fun h => by rw [h]; rfl, fun h => Bank.ext_slots h⟩

/-- ADVANCE on an all-EMPTY bank counts a cycle (R179). -/
theorem Instance.advance_of_empty {c : Instance} (h : c.bank = Bank.empty) (p : Params) :
    c.advance p = { c with ctr := c.ctr.countCycle } := by
  have hbranch : branchInDecode c.bank = false := by rw [h]; rfl
  have hstall : stallCount c.cfg.branchPrediction c.bank = 0 := by rw [h]; rfl
  rw [Instance.advance_of_noStall p hstall, Instance.detectingBody_of_noBranch hbranch]
  obtain ⟨cfg, sets, bank, ctr⟩ := c
  obtain rfl : bank = Bank.empty := h
  rfl

/-- Settles O35. -/
theorem advanceOnEmptyBankOnlyCountsCycle : Obligations.AdvanceOnEmptyBankOnlyCountsCycle := by
  intro s c hrun hslots
  rw [exec_advance_of_running hrun, Instance.advance_of_empty (Bank.eq_empty_iff.mpr hslots)]
  rfl

end Sys2Proof.Machine

/-! PROOF. FINALIZE (42_pipeline_driver.md R170, R171): no replay of an ADVANCE runs on a bank that is already EMPTY, so
every cycle of the drain brings the lowest slot one stage nearer to the end of the bank. -/

namespace Sys2Proof.Machine

/-! The bodies of one ADVANCE, counted. -/

/-- `d` is `c` after `m` bodies of ADVANCE: `m` shifts and `m` cycles. -/
structure Instance.After (m : Nat) (c d : Instance) : Prop where
  bank : d.bank = Bank.shift^[m] c.bank
  cycles : d.ctr.cycleCount = c.ctr.cycleCount + m

section
variable {c d e : Instance} {m n k : Nat}

theorem Instance.After.trans (h : Instance.After m c d) (h' : Instance.After n d e) : Instance.After (m + n) c e where
  bank := by rw [h'.bank, h.bank, Nat.add_comm, Function.iterate_add_apply]
  cycles := by rw [h'.cycles, h.cycles, Nat.add_assoc]

theorem Instance.after_quietBody (c : Instance) : Instance.After 1 c c.quietBody := ⟨rfl, rfl⟩

theorem Instance.after_detectingBody (c : Instance) : Instance.After 1 c c.retire.detect.2.tickAndShift := ⟨rfl, rfl⟩

/-- Every body makes one stage more EMPTY. -/
theorem Instance.After.emptyBelow (h : Instance.After m c d) (hk : c.bank.EmptyBelow k) :
    d.bank.EmptyBelow (k + m) := by
  rw [h.bank]
  clear h
  induction m with
  | zero => exact hk
  | succ m ih =>
    rw [Function.iterate_succ_apply']
    exact ih.shift

/-- A BRANCH in DECODE stands above at most one EMPTY stage. -/
theorem Bank.EmptyBelow.le_one {b : Bank} (h : b.EmptyBelow k) (hbranch : Machine.branchInDecode b = true) : k ≤ 1 := by
  by_contra hk
  rw [h.branchInDecode (by omega)] at hbranch
  exact Bool.false_ne_true hbranch

/-- A bank that stalls has at most two EMPTY stages first. -/
theorem Bank.EmptyBelow.le_two {b : Bank} (h : b.EmptyBelow k) {p : Prediction} (hstall : Machine.stallCount p b ≠ 0) :
    k ≤ 2 := by
  by_contra hk
  exact hstall (h.stallCount_eq_zero (by omega) p)

/-- Where no pair stalls, an ADVANCE that starts behind an EMPTY FETCH ends at WRITEBACK at the latest: its only replay
is that of a BRANCH in DECODE, which leaves none behind it. -/
theorem Instance.exists_after_of_noPair (r : Bool) (depth : Nat) (detects : Bool) (h : c.bank.EmptyBelow k) (hk : 1 ≤ k)
    (hk' : k ≤ 3) (hpair : pairStalls c.bank = false) :
    ∃ m, 1 ≤ m ∧ k + m ≤ 4 ∧ Instance.After m c (c.advanceBody r depth detects) := by
  induction depth generalizing detects c k with
  | zero => exact ⟨1, le_rfl, by omega, c.after_quietBody⟩
  | succ depth ih =>
    cases detects with
    | false => exact ⟨1, le_rfl, by omega, by rw [Instance.advanceBody_of_not_detects]; exact c.after_quietBody⟩
    | true =>
      have hfirst := c.after_detectingBody
      have hstall := stallCount_eq_branch_add_pair c.cfg.branchPrediction c.bank
      rw [hpair, Bool.toNat_false, Nat.add_zero] at hstall
      rw [Instance.advanceBody_succ_detects, hstall]
      cases hbranch : branchInDecode c.bank && !branchPredicted c.cfg.branchPrediction c.bank with
      | false => exact ⟨1, le_rfl, by omega, hfirst⟩
      | true =>
        have hdecode : branchInDecode c.bank = true := (Bool.and_eq_true_iff.mp hbranch).1
        have hone := h.le_one hdecode
        obtain ⟨m, hm, hend, hreplay⟩ := ih r (hfirst.emptyBelow h) (by omega) (by omega)
          (pairStalls_shift_of_branch hdecode)
        exact ⟨1 + m, by omega, by omega, hfirst.trans hreplay⟩

/-- An ADVANCE on a bank with a slot that is not EMPTY ends with the last body that can still move one: of two stall
units one is a BRANCH's, so that no pair stalls in the first replay. -/
theorem Instance.exists_after (r : Bool) (depth : Nat) (detects : Bool) (h : c.bank.EmptyBelow k) (hk : k ≤ 4) :
    ∃ m, 1 ≤ m ∧ k + m ≤ 5 ∧ Instance.After m c (c.advanceBody r depth detects) := by
  induction depth generalizing detects c k with
  | zero => exact ⟨1, le_rfl, by omega, c.after_quietBody⟩
  | succ depth ih =>
    cases detects with
    | false => exact ⟨1, le_rfl, by omega, by rw [Instance.advanceBody_of_not_detects]; exact c.after_quietBody⟩
    | true =>
      have hfirst := c.after_detectingBody
      have hle := stallCount_le_two c.cfg.branchPrediction c.bank
      have htwo : stallCount c.cfg.branchPrediction c.bank ≠ 0 → k ≤ 2 := h.le_two
      rw [Instance.advanceBody_succ_detects]
      obtain hn | hn | hn : stallCount c.cfg.branchPrediction c.bank = 0
          ∨ stallCount c.cfg.branchPrediction c.bank = 1 ∨ stallCount c.cfg.branchPrediction c.bank = 2 := by omega
      all_goals rw [hn]
      · exact ⟨1, le_rfl, by omega, hfirst⟩
      · obtain ⟨m, hm, hend, hreplay⟩ := ih r (hfirst.emptyBelow h) (by omega)
        exact ⟨1 + m, by omega, by omega, hfirst.trans hreplay⟩
      · obtain ⟨⟨hdecode, -⟩, -⟩ := stallCount_eq_two_iff.mp hn
        have hone := h.le_one hdecode
        obtain ⟨m₁, hm₁, hend₁, hreplay₁⟩ := Instance.exists_after_of_noPair r depth r (hfirst.emptyBelow h) (by omega)
          (by omega) (pairStalls_shift_of_branch hdecode)
        obtain ⟨m₂, hm₂, hend₂, hreplay₂⟩ := ih r (hreplay₁.emptyBelow (hfirst.emptyBelow h)) (by omega)
        exact ⟨1 + m₁ + m₂, by omega, by omega, (hfirst.trans hreplay₁).trans hreplay₂⟩

end

/-! The lowest slot that is not EMPTY. -/

section
variable {b : Bank}

/-- Every stage below the lowest slot is EMPTY. -/
theorem Bank.emptyBelow_lowest (b : Bank) : b.EmptyBelow b.lowest := by
  intro stage hstage
  have hslot : ∀ h : stage.number < b.slots.length, b.slots[stage.number] = b.at stage := by
    cases stage <;> exact fun _ => rfl
  have hbefore := List.not_of_lt_findIdx hstage
  rw [hslot] at hbefore
  simpa [Slot.empty] using hbefore

/-- R171 counts 5 for an all-EMPTY bank, and for no other. -/
theorem Bank.lowest_eq_five_iff : b.lowest = 5 ↔ b = Bank.empty := by
  constructor
  · intro h
    exact Bank.EmptyBelow.eq_empty (b.emptyBelow_lowest.mono (Nat.le_of_eq h.symm))
  · rintro rfl
    decide

theorem Bank.lowest_le_five (b : Bank) : b.lowest ≤ 5 := List.findIdx_le_length (xs := b.slots)

/-- A shift moves the lowest slot one stage on (R165). -/
theorem Bank.lowest_shift (h : b.lowest ≤ 4) : b.shift.lowest = b.lowest + 1 := by
  have hlowest : b.lowest = ([b.fetch, b.decode, b.alu, b.mem] ++ [b.writeback]).findIdx
    (fun x => decide (x ≠ Slot.nop 0#32)) := rfl
  have hshift : b.shift.lowest = (Slot.nop 0#32 :: [b.fetch, b.decode, b.alu, b.mem]).findIdx
    (fun x => decide (x ≠ Slot.nop 0#32)) := rfl
  have hle := List.findIdx_le_length (xs := [b.fetch, b.decode, b.alu, b.mem])
    (p := fun x => decide (x ≠ Slot.nop 0#32))
  simp only [ne_eq, List.length_cons, List.length_nil] at hle
  rw [hshift, List.findIdx_cons]
  rw [hlowest, List.findIdx_append] at h ⊢
  simp only [ne_eq, not_true_eq_false, decide_false, cond_false, List.length_cons, List.length_nil] at h ⊢
  split at h <;> split <;> omega

theorem Bank.lowest_shift_iterate {m : Nat} (h : b.lowest + m ≤ 5) : (Bank.shift^[m] b).lowest = b.lowest + m := by
  induction m with
  | zero => rfl
  | succ m ih =>
    have hlowest := ih (by omega)
    rw [Function.iterate_succ_apply', Bank.lowest_shift (by omega), hlowest, Nat.add_assoc]

end

/-! The drain. -/

/-- A cycle of an ADVANCE on a bank that is not EMPTY moves its lowest slot one stage on. -/
theorem Instance.lowest_advance {c : Instance} (hne : c.bank ≠ Bank.empty) (p : Params) :
    (c.advance p).ctr.cycleCount + c.bank.lowest = c.ctr.cycleCount + (c.advance p).bank.lowest := by
  have hlowest : c.bank.lowest ≤ 4 := by
    have hle := c.bank.lowest_le_five
    have hne5 := mt Bank.lowest_eq_five_iff.mp hne
    omega
  obtain ⟨m, -, hend, hafter⟩ :=
    Instance.exists_after p.replayRedetect replayDepth true c.bank.emptyBelow_lowest hlowest
  rw [Instance.advance, hafter.cycles, hafter.bank, Bank.lowest_shift_iterate hend]
  omega

theorem Instance.lowest_drain (p : Params) (fuel : Nat) (c : Instance) :
    (c.drain p fuel).ctr.cycleCount + c.bank.lowest = c.ctr.cycleCount + (c.drain p fuel).bank.lowest := by
  induction fuel generalizing c with
  | zero => rfl
  | succ fuel ih =>
    rw [Instance.drain]
    split
    case isTrue => rfl
    case isFalse hne =>
      have hadvance := Instance.lowest_advance hne p
      have hrest := ih (c.advance p)
      omega

/-- FINALIZE takes a cycle for every stage the lowest slot has to go (R171). -/
theorem Instance.finalize_cycleCount (p : Params) (c : Instance) :
    (c.finalize p).ctr.cycleCount = c.ctr.cycleCount + (5 - c.bank.lowest) := by
  have hdrain := c.lowest_drain p Config.stages
  have hend : (c.drain p Config.stages).bank.lowest = 5 := Bank.lowest_eq_five_iff.mpr (c.finalize_bank p)
  have hle := c.bank.lowest_le_five
  rw [hend] at hdrain
  rw [Instance.finalize]
  omega

/-- What keeps the cache leaves an instance that differs in the bank and in four counters. -/
theorem Instance.SameCache.eq {c d : Instance} (h : c.SameCache d) : d = { c with
    bank := d.bank
    ctr := { c.ctr with
      cycleCount := d.ctr.cycleCount
      retiredCount := d.ctr.retiredCount
      branchCount := d.ctr.branchCount
      correctBranchCount := d.ctr.correctBranchCount } } := by
  obtain ⟨hcfg, hsets, haccess, hhit, hmiss⟩ := h
  simp only [← hcfg, ← hsets, ← haccess, ← hhit, ← hmiss]

/-- Settles O37. -/
theorem finalizeDrainsTheBank : Obligations.FinalizeDrainsTheBank := by
  intro s c hrun
  refine ⟨(c.finalize s.params).bank, (c.finalize s.params).ctr.branchCount,
    (c.finalize s.params).ctr.correctBranchCount, ?completes, ?empty⟩
  case completes =>
    have hretired : (c.finalize s.params).ctr.retiredCount = c.ctr.retiredCount + c.bank.inFlight :=
      c.finalize_retiredCount s.params
    rw [exec_finalize_of_running hrun, ← hretired, ← c.finalize_cycleCount s.params,
      ← (c.sameCache_finalize s.params).eq]
  case empty => exact Bank.eq_empty_iff.mp (c.finalize_bank s.params)

/-! The loop. -/

theorem Instance.drain_of_empty {c : Instance} (h : c.bank = Bank.empty) (p : Params) (fuel : Nat) :
    c.drain p fuel = c := by
  cases fuel with
  | zero => rfl
  | succ fuel => exact if_pos h

theorem Instance.drain_succ_of_not_empty {c : Instance} (h : c.bank ≠ Bank.empty) (p : Params) (fuel : Nat) :
    c.drain p (fuel + 1) = (c.advance p).drain p fuel := if_neg h

/-- A drain that ends on an all-EMPTY bank needs no further turn. -/
theorem Instance.drain_succ {p : Params} {fuel : Nat} {c : Instance} (h : (c.drain p fuel).bank = Bank.empty) :
    c.drain p (fuel + 1) = c.drain p fuel := by
  induction fuel generalizing c with
  | zero => exact Instance.drain_of_empty h p 1
  | succ fuel ih =>
    by_cases hc : c.bank = Bank.empty
    · rw [Instance.drain_of_empty hc, Instance.drain_of_empty hc]
    · rw [Instance.drain_succ_of_not_empty hc] at h
      rw [Instance.drain_succ_of_not_empty hc, Instance.drain_succ_of_not_empty hc, ih h]

/-- One turn of R170: the ADVANCE leaves FETCH EMPTY, so the rest needs one turn less. -/
theorem Instance.finalize_of_not_empty {p : Params} {c : Instance} (hne : c.bank ≠ Bank.empty) :
    c.finalize p = (c.advance p).finalize p := by
  have hfetch : (c.advance p).bank.EmptyBelow 1 := Instance.emptyBelow_advance c.bank.emptyBelow_zero p
  have hrest : ((c.advance p).drain p 4).bank = Bank.empty := Instance.drain_bank (by decide) hfetch
  calc c.finalize p = (c.advance p).drain p 4 := Instance.drain_succ_of_not_empty hne p 4
    _ = (c.advance p).finalize p := (Instance.drain_succ hrest).symm

/-- Settles O38. -/
theorem finalizeIsTheAdvanceLoop : Obligations.FinalizeIsTheAdvanceLoop := by
  intro s c hrun
  rw [exec_finalize_of_running hrun, ← Bank.eq_empty_iff.ne]
  constructor
  · intro hempty
    rw [Instance.finalize_of_empty (Bank.eq_empty_iff.mpr hempty), ← hrun.2]
  · intro hne
    refine ⟨_, exec_advance_of_running hrun, ?_⟩
    rw [exec_finalize_of_running (hrun.completed (c.advance s.params) .done), ← Instance.finalize_of_not_empty hne]

end Sys2Proof.Machine

/-! PROOF. The commands built on ADVANCE (43_dispatch.md R190 to R198, 44_fetch_miss.md R210 to R214): each one's next
state, in terms of the lookup and of ADVANCE. -/

namespace Sys2Proof.Machine

/-! The PROCESS commands. -/

/-- Settles O39: the PROCESS commands write FETCH behind the ADVANCE that has cleared it. -/
theorem processWithoutOperandsInsertsSlot : Obligations.ProcessWithoutOperandsInsertsSlot := by
  intro s c hrun
  exact ⟨c.advance s.params, exec_advance_of_running hrun, c.advance_fetch s.params, fun addr =>
    ⟨exec_processCommand_of_running (x := .nop addr) hrun rfl,
      exec_processCommand_of_running (x := .branch addr) hrun rfl,
      exec_processCommand_of_running (x := .jump addr) hrun rfl,
      exec_processCommand_of_running (x := .syscall addr) hrun rfl⟩⟩

/-- Settles O40. -/
theorem processWithOperandsInsertsSlot : Obligations.ProcessWithOperandsInsertsSlot := by
  intro s c hrun
  exact ⟨c.advance s.params, exec_advance_of_running hrun, fun addr r x y =>
    ⟨exec_processCommand_of_running (x := .rtype addr (some r) x y) hrun rfl,
      exec_processCommand_of_running (x := .load addr (some r) x) hrun rfl,
      exec_processCommand_of_running (x := .store addr (some r) x) hrun rfl⟩⟩

/-- EMPTY written into an EMPTY FETCH changes nothing. -/
theorem Instance.insert_empty {c : Instance} (h : c.bank.fetch = Slot.empty) : c.insert Slot.empty = c := by
  rw [Instance.insert, Bank.insert, ← h]
  rfl

/-- Settles O42: the slot PROCESS_NOP writes at address 0 is EMPTY, which FETCH holds already. -/
theorem processNopAtZeroIsAdvance : Obligations.ProcessNopAtZeroIsAdvance := by
  intro s
  have hprocess : (fun c : Instance => (c.process s.params Slot.empty, Response.done))
      = fun c => (c.advance s.params, .done) := by
    funext c
    rw [Instance.process, Instance.insert_empty (c.advance_fetch s.params)]
  calc exec (.processNop 0#32) s = .next (s.process Slot.empty) := rfl
    _ = .next (s.onInstance fun c => (c.process s.params Slot.empty, .done)) := by rw [State.process_of_present rfl]
    _ = exec .advance s := by rw [hprocess]; rfl

/-- Settles O49: the sum is what has been issued. -/
theorem instructionsAreRetiredOnce : Obligations.InstructionsAreRetiredOnce :=
  fun _ _ _ hrun hconf hpresent => exec_issued hrun hconf hpresent

/-! FETCH_ACCESS. -/

section
variable {s : State} {c : Instance}

/-- ADVANCE commands, one after another. -/
theorem execAll_advances (h : s.Running c) (n : Nat) :
    ∃ r, execAll (List.replicate n .advance) s
        = .next { s with inst := some ((Instance.advance s.params)^[n] c), response := r }
      ∧ (1 ≤ n → r = some .done) := by
  induction n generalizing s c with
  | zero =>
    refine ⟨s.response, ?_, fun hn => absurd hn (by decide)⟩
    rw [Function.iterate_zero, id_eq, ← h.2]
    rfl
  | succ n ih =>
    obtain ⟨r, hexec, hanswer⟩ := ih (h.completed (c.advance s.params) .done)
    rw [List.replicate_succ, execAll_cons_of_next (exec_advance_of_running h), hexec]
    refine ⟨r, rfl, fun _ => ?_⟩
    cases n with
    | zero =>
      have hnext := Host.Outcome.next.inj hexec
      exact (congrArg State.response hnext).symm
    | succ n => exact hanswer (by omega)

/-- A LOOKUP and ADVANCE commands behind it. -/
theorem execAll_lookup_advances (h : s.Running c) (addr : Addr) (n : Nat) :
    ∃ r, execAll (.lookup addr :: List.replicate n .advance) s
        = .next { s with inst := some ((Instance.advance s.params)^[n] (c.lookup addr)), response := r }
      ∧ (1 ≤ n → r = some .done) := by
  obtain ⟨r, hexec, hanswer⟩ := execAll_advances (h.completed (c.lookup addr) (lookupAnswer (c.hits addr))) n
  exact ⟨r, by rw [execAll_cons_of_next (exec_lookup_of_running h addr), hexec], hanswer⟩

end

/-- Settles O43. -/
theorem fetchAccessHitIsLookup : Obligations.FetchAccessHitIsLookup := by
  intro s c addr hrun hresident
  have hhits : c.hits addr = true := (c.hits_iff addr).mpr hresident
  have hlookup := exec_lookup_of_running hrun addr
  have hfetch := exec_fetchAccess_of_running hrun addr
  rw [hhits] at hlookup hfetch
  rw [Instance.fetchAccess_of_hit hhits] at hfetch
  refine ⟨(c.lookup addr).sets, _, ?_, hfetch, hlookup⟩
  rw [Instance.lookup_eq, hhits]
  rfl

/-- Settles O44. -/
theorem fetchAccessMissIsLookupAndBurn : Obligations.FetchAccessMissIsLookupAndBurn := by
  intro s c addr hrun hno
  have hmiss : c.hits addr = false := Instance.hits_of_noMatch hno
  obtain ⟨r, hexec, -⟩ := execAll_lookup_advances hrun addr (s.params.missPenalty - 1)
  refine ⟨_, hexec, ?_⟩
  rw [exec_fetchAccess_of_running hrun, Instance.fetchAccess_of_miss hmiss, hmiss]
  rfl

/-- ADVANCE commands on an all-EMPTY bank count their cycles (R179). -/
theorem Instance.advance_iterate_of_empty {c : Instance} (h : c.bank = Bank.empty) (p : Params) (n : Nat) :
    (Instance.advance p)^[n] c = { c with ctr := { c.ctr with cycleCount := c.ctr.cycleCount + n } } := by
  induction n generalizing c with
  | zero => rfl
  | succ n ih =>
    rw [Function.iterate_succ_apply, Instance.advance_of_empty h,
      ih (c := { c with ctr := c.ctr.countCycle }) h, Counters.countCycle, Nat.add_assoc, Nat.add_comm 1 n]

/-- Settles O45. -/
theorem missOnEmptyBankCostsThePenalty : Obligations.MissOnEmptyBankCostsThePenalty := by
  intro s c addr hrun hslots hno
  have hmiss : c.hits addr = false := Instance.hits_of_noMatch hno
  have hbank : (c.lookup addr).bank = Bank.empty := Bank.eq_empty_iff.mpr hslots
  refine ⟨(c.lookup addr).sets, ?lookup, ?fetch⟩
  case lookup =>
    rw [exec_lookup_of_running hrun, Instance.lookup_eq, hmiss]
    rfl
  case fetch =>
    rw [exec_fetchAccess_of_running hrun, Instance.fetchAccess_of_miss hmiss,
      Instance.advance_iterate_of_empty hbank, Instance.lookup_eq, hmiss]
    rfl

/-! A trace step. -/

/-- FETCH_ACCESS and the PROCESS command behind it, whole. -/
theorem execAll_stepCommands {s : State} {c : Instance} (h : s.Running c) {x : Slot}
    (hx : x.mandatoryPresent = true) : execAll (stepCommands x) s
      = .next { s with inst := some ((c.fetchAccess s.params x.addr).process s.params x), response := some .done } := by
  have hfetch := exec_fetchAccess_of_running h x.addr
  have hprocess := exec_processCommand_of_running
    (h.completed (c.fetchAccess s.params x.addr) (lookupAnswer (c.hits x.addr))) hx
  rw [stepCommands, execAll_cons_of_next hfetch, execAll_cons_of_next hprocess]
  rfl

/-- With the ADVANCE of its PROCESS command a fetch is its lookup and MISS_PENALTY ADVANCEs on a miss, one on a hit
(R214). -/
theorem Instance.advance_fetchAccess {p : Params} (hpenalty : 1 ≤ p.missPenalty) (addr : Addr) (c : Instance) :
    (c.fetchAccess p addr).advance p
      = (Instance.advance p)^[if c.hits addr then 1 else p.missPenalty] (c.lookup addr) := by
  cases hhits : c.hits addr with
  | true =>
    rw [Instance.fetchAccess_of_hit hhits]
    rfl
  | false =>
    rw [Instance.fetchAccess_of_miss hhits, ← Function.iterate_succ_apply' (Instance.advance p),
      Nat.succ_eq_add_one, Nat.sub_add_cancel hpenalty]
    rfl

/-- Settles O47. -/
theorem traceStepCostsThePenalty : Obligations.TraceStepCostsThePenalty := by
  intro s c x hrun hx hpenalty
  obtain ⟨r, hexec, hanswer⟩ :=
    execAll_lookup_advances hrun x.addr (if c.hits x.addr then 1 else s.params.missPenalty)
  obtain rfl := hanswer (by split <;> omega)
  refine ⟨_, _, hexec, hrun.completed _ _, ?_⟩
  rw [execAll_stepCommands hrun hx, Instance.process, Instance.advance_fetchAccess hpenalty]
  rfl

end Sys2Proof.Machine

/-! PROOF. A whole run of a trace without stalls (44_fetch_miss.md R217): the detector does not read the slots, so every
ADVANCE is one cycle, and the counters after each trace step follow from those before it. -/

namespace Sys2Proof.Machine

/-! Slots that the detector does not read. -/

/-- A slot of a kind that no check of DETECT fires on. -/
def Slot.Unread (x : Slot) : Prop := x.kind = .nop ∨ x.kind = .jump ∨ x.kind = .syscall

/-- Nothing in the bank is read by the detector. -/
def Bank.Unread (b : Bank) : Prop := ∀ x ∈ b.slots, x.Unread

theorem Slot.Unread.mandatoryPresent {x : Slot} (h : x.Unread) : x.mandatoryPresent = true := by
  cases x with
  | nop | jump | syscall | branch => rfl
  | rtype | load | store => simp [Slot.Unread, Slot.kind] at h

section
variable {b : Bank}

theorem Bank.unread_empty : Bank.empty.Unread := fun _ hx => .inl (by rw [List.eq_of_mem_replicate (n := 5) hx]; rfl)

theorem Bank.Unread.shift (h : b.Unread) : b.shift.Unread := by
  intro x hx
  rw [Bank.shift_slots] at hx
  obtain rfl | hx := List.mem_cons.mp (List.mem_of_mem_take hx)
  · exact .inl rfl
  · exact h x hx

theorem Bank.Unread.insert (h : b.Unread) {y : Slot} (hy : y.Unread) : (b.insert y).Unread := by
  intro x hx
  obtain rfl | hx := List.mem_cons.mp (show x ∈ y :: b.slots.tail from hx)
  · exact hy
  · exact h x (List.mem_of_mem_tail hx)

theorem Bank.Unread.branchInDecode (h : b.Unread) : branchInDecode b = false := by
  have hdecode := h b.decode (by simp [Bank.slots])
  rw [Bool.eq_false_iff, ne_eq, branchInDecode_iff]
  rintro ⟨addr, hbranch⟩
  simp [Slot.Unread, Slot.kind, hbranch] at hdecode

theorem Bank.Unread.stallCount (h : b.Unread) (p : Prediction) : stallCount p b = 0 := by
  have halu := h b.alu (by simp [Bank.slots])
  have hpair : pairStalls b = false := by
    refine pairStalls_of_alu fun ra rd s1 s2 hrtype => ?_
    simp [Slot.Unread, Slot.kind, hrtype] at halu
  simp [stallCount_eq_branch_add_pair, h.branchInDecode, hpair]

end

/-! The counters along the trace. -/

/-- ADVANCE on such a bank is one quiet body, under both policies. -/
theorem Instance.advance_of_unread {c : Instance} (h : c.bank.Unread) (p : Params) : c.advance p = c.quietBody := by
  rw [Instance.advance_of_noStall p (h.stallCount _), Instance.detectingBody_of_noBranch h.branchInDecode]

/-- The block after `n` trace steps, of which `counting` had a nonzero address: what R217 says before the drain of
the steps so far. -/
structure Instance.Traced (p : Params) (n counting : Nat) (c : Instance) : Prop where
  unread : c.bank.Unread
  accesses : c.ctr.cacheAccess = n
  hits_add_misses : c.ctr.cacheHit + c.ctr.cacheMiss = n
  cycles : c.ctr.cycleCount = n + c.ctr.cacheMiss * (p.missPenalty - 1)
  issued : c.issued = counting
  branches : c.ctr.branchCount = 0
  correctBranches : c.ctr.correctBranchCount = 0

theorem Instance.traced_freshInstance (p : Params) (g : Cfg) : (freshInstance g).Traced p 0 0 :=
  ⟨Bank.unread_empty, rfl, rfl, by simp [Counters.zero], rfl, rfl, rfl⟩

/-- Repeated ADVANCEs on such a bank are repeated quiet bodies. -/
theorem Instance.advance_iterate_of_unread {c : Instance} (h : c.bank.Unread) (p : Params) (n : Nat) :
    (Instance.advance p)^[n] c = Instance.quietBody^[n] c :=
  iterate_congr_of_invariant (P := fun d : Instance => d.bank.Unread) (fun _ hd => Instance.advance_of_unread hd p)
    (fun d hd => by rw [Instance.advance_of_unread hd p]; exact Bank.Unread.shift hd) n h

theorem Bank.Unread.shift_iterate {b : Bank} (h : b.Unread) (n : Nat) : (Bank.shift^[n] b).Unread := by
  induction n with
  | zero => exact h
  | succ n ih =>
    rw [Function.iterate_succ_apply']
    exact ih.shift

/-- The burn of a miss and the ADVANCE of the PROCESS command are that many quiet bodies. -/
theorem Instance.advance_fetchAccess_of_unread {c : Instance} (h : c.bank.Unread) (p : Params) (addr : Addr) :
    (c.fetchAccess p addr).advance p
      = Instance.quietBody^[(!c.hits addr).toNat * (p.missPenalty - 1) + 1] (c.lookup addr) := by
  have hlookup : (c.lookup addr).bank.Unread := h
  rw [← Instance.advance_iterate_of_unread hlookup p, Function.iterate_succ_apply']
  cases hhits : c.hits addr with
  | true => rw [Instance.fetchAccess_of_hit hhits, Bool.not_true, Bool.toNat_false, Nat.zero_mul]; rfl
  | false => rw [Instance.fetchAccess_of_miss hhits, Bool.not_false, Bool.toNat_true, Nat.one_mul]

/-- One trace step: an access, its cycles, and one instruction. -/
theorem Instance.Traced.step {p : Params} {n counting : Nat} {c : Instance} (h : c.Traced p n counting) {x : Slot}
    (hx : x.Unread) : ((c.fetchAccess p x.addr).process p x).Traced p (n + 1) (counting + x.counts.toNat) := by
  have hadvance := Instance.advance_fetchAccess_of_unread h.unread p x.addr
  rw [Instance.quietBody_iterate] at hadvance
  constructor
  case unread =>
    rw [Instance.process_bank, hadvance]
    exact (h.unread.shift_iterate _).insert hx
  case issued => rw [Instance.issued_process, Instance.issued_fetchAccess, h.issued]
  case accesses =>
    rw [Instance.process_ctr, hadvance]
    exact congrArg (· + 1) h.accesses
  case hits_add_misses =>
    have hsum := h.hits_add_misses
    rw [Instance.process_ctr, hadvance]
    simp only [Instance.lookup_ctr, Counters.countLookup_cacheHit, Counters.countLookup_cacheMiss]
    cases c.hits x.addr <;> simp only [Bool.not_true, Bool.not_false, Bool.toNat_true, Bool.toNat_false] <;> omega
  case cycles =>
    have hcycles := h.cycles
    rw [Instance.process_ctr, hadvance]
    simp only [Instance.lookup_ctr, Counters.countLookup_cycleCount, Counters.countLookup_cacheMiss, Nat.add_mul]
    omega
  case branches =>
    rw [Instance.process_ctr, hadvance]
    exact h.branches
  case correctBranches =>
    rw [Instance.process_ctr, hadvance]
    exact h.correctBranches

/-- The steps of a trace in order. -/
theorem execAll_trace {trace : List Slot} (htrace : ∀ x ∈ trace, x.Unread) {s : State} {c : Instance}
    (h : s.Running c) {n counting : Nat} (hc : c.Traced s.params n counting) :
    ∃ t d, execAll (trace.flatMap stepCommands) s = .next t ∧ t.Running d ∧ t.params = s.params
      ∧ d.Traced s.params (n + trace.length) (counting + trace.countP Slot.counts) := by
  induction trace generalizing s c n counting with
  | nil => exact ⟨s, c, rfl, h, rfl, hc⟩
  | cons x rest ih =>
    obtain ⟨hx, hrest⟩ := List.forall_mem_cons.mp htrace
    obtain ⟨t, d, hexec, hrunning, hparams, hd⟩ := ih hrest (h.completed _ .done) (hc.step hx)
    refine ⟨t, d, ?_, hrunning, hparams, ?_⟩
    · rw [List.flatMap_cons, execAll_append_of_next (execAll_stepCommands h hx.mandatoryPresent), hexec]
    · have hlen : n + (x :: rest).length = n + 1 + rest.length := by rw [List.length_cons]; omega
      have hcount : counting + (x :: rest).countP Slot.counts
          = counting + x.counts.toNat + rest.countP Slot.counts := by
        rw [List.countP_cons, Bool.toNat, Bool.cond_eq_ite]
        omega
      rw [hlen, hcount]
      exact hd

/-! The drain behind it. -/

/-- A slot in FETCH has the whole pipeline before it. -/
theorem Bank.lowest_eq_zero {b : Bank} (h : b.fetch ≠ Slot.empty) : b.lowest = 0 := by
  rw [Bank.lowest, Bank.slots, List.findIdx_cons]
  simp [show b.fetch ≠ Slot.nop 0#32 from h]

/-- FINALIZE evaluates no branch on such a bank. -/
theorem Instance.Traced.finalize {p : Params} {n counting : Nat} {c : Instance} (h : c.Traced p n counting)
    (q : Params) : (c.finalize q).ctr.branchCount = 0 ∧ (c.finalize q).ctr.correctBranchCount = 0 := by
  have hkeep : ∀ d : Instance, (d.bank.Unread ∧ d.ctr.branchCount = 0 ∧ d.ctr.correctBranchCount = 0) →
      (d.advance q).bank.Unread ∧ (d.advance q).ctr.branchCount = 0 ∧ (d.advance q).ctr.correctBranchCount = 0 := by
    rintro d ⟨hunread, hcounts⟩
    rw [Instance.advance_of_unread hunread q]
    exact ⟨hunread.shift, hcounts⟩
  obtain ⟨-, hcounts⟩ := Instance.finalize_induction hkeep ⟨h.unread, h.branches, h.correctBranches⟩
  exact hcounts

/-- A legal CONFIGURE and then the steps of a trace with a last slot: the last slot stands in FETCH. -/
theorem execAll_configure_trace {s : State} {g : Cfg} (hlegal : Cfg.legal s.params g = true) {trace : List Slot}
    {last : Slot} (htrace : ∀ x ∈ trace ++ [last], x.Unread) :
    ∃ t d, execAll (.configure g.indexBits g.blockSizeWords g.associativity g.branchPrediction
          :: (trace ++ [last]).flatMap stepCommands) s = .next t
      ∧ t.Running d ∧ d.Traced s.params (trace.length + 1) ((trace ++ [last]).countP Slot.counts)
      ∧ d.bank.fetch = last := by
  obtain ⟨hbefore, hlast⟩ := List.forall_mem_append.mp htrace
  have hunread : last.Unread := hlast last (List.mem_singleton_self last)
  obtain ⟨s₀, hconfigure, hrunning₀⟩ := exec_configure_running hlegal
  have hparams₀ : s₀.params = s.params := by
    obtain ⟨u, hu, -, hparams⟩ :=
      exec_frame s (.configure g.indexBits g.blockSizeWords g.associativity g.branchPrediction)
    rw [← Host.Outcome.next.inj (hu.symm.trans hconfigure), hparams]
  obtain ⟨t, d, hexec, hrunning, hparams, hd⟩ :=
    execAll_trace hbefore hrunning₀ (Instance.traced_freshInstance s₀.params g)
  have hstep := hd.step hunread
  rw [Nat.zero_add, Nat.zero_add, hparams₀] at hstep
  refine ⟨_, (d.fetchAccess s.params last.addr).process s.params last, ?_, hrunning.completed _ .done, ?_, rfl⟩
  · rw [execAll_cons_of_next hconfigure, List.flatMap_append, execAll_append_of_next hexec, List.flatMap_singleton,
      execAll_stepCommands hrunning hunread.mandatoryPresent, hparams, hparams₀]
  · rw [List.countP_append, List.countP_singleton, ← Bool.cond_eq_ite]
    exact hstep

/-- Settles O48: behind the trace FINALIZE drains a bank whose lowest slot stands in FETCH. -/
theorem runOfStallFreeTrace : Obligations.RunOfStallFreeTrace := by
  intro s g trace last hlegal htrace hlast
  obtain ⟨t, d, hexec, hrunning, hd, hfetch⟩ := execAll_configure_trace hlegal htrace
  have hcounts : (fun x : Slot => decide (x.addr ≠ 0#32)) = Slot.counts :=
    funext fun x => x.counts_eq_decide.symm
  have hlowest : d.bank.lowest = 0 := Bank.lowest_eq_zero (hfetch ▸ hlast)
  obtain ⟨-, -, haccess, hhit, hmiss⟩ := d.sameCache_finalize t.params
  obtain ⟨hbranches, hcorrect⟩ := hd.finalize t.params
  refine ⟨_, d.finalize t.params, ?completes, hrunning.completed _ .done, ?empty, ?accesses, ?hitsMisses, ?cycles,
    ?retired, ?branches, ?correct⟩
  case completes =>
    rw [runCommands, ← List.cons_append, execAll_append_of_next hexec,
      execAll_cons_of_next (exec_finalize_of_running hrunning)]
    rfl
  case empty => exact Bank.eq_empty_iff.mp (d.finalize_bank t.params)
  case accesses => rw [haccess, hd.accesses]
  case hitsMisses => rw [hhit, hmiss, hd.hits_add_misses]
  case cycles => rw [d.finalize_cycleCount, hd.cycles, hmiss, hlowest]
  case retired => rw [d.finalize_retiredCount, hd.issued, hcounts]
  case branches => exact hbranches
  case correct => exact hcorrect

end Sys2Proof.Machine
